-- ==== Sys2Proof/Word.lean ====
section
/-! DEFINITION. The widths of KHDXT (00_scope.md rules R7, R9): registers and pixel-memory addresses have 32 bits, a byte has 8. -/
namespace Sys2Proof

/-- A host-visible register or a pixel-memory address: `RW = AW = 32` (R7). -/
abbrev Word := BitVec 32

/-- A byte of the pixel memory or of a block (R9). -/
abbrev Byte := BitVec 8

end Sys2Proof
end

