-- ==== Sys2Proof/Config.lean ====
section
/-! DEFINITION. What the spec leaves to the platform and the model leaves free: the power-on content of the pixel memory. -/
namespace Sys2Proof

/-- The byte the pixel memory holds at an address nothing has written since power-on: "unspecified at power-on"
(10_state.md rule R34, 70_reset_and_hazards.md rule R202; 93 entry U6 "any value"). A FREE VALUE without a body, one byte
for each address, so that no proof can learn it (log entry 1). -/
opaque Config.powerOnByte : Nat → Byte

end Sys2Proof
end

