-- ==== Sys2Proof/Syntax.lean ====
section
/-! DEFINITION. What the host can hand to KHDXT: the seven commands (one constructor per row of opcode_table.json), the names of the registers, and the host steps of the command-script notation (30_encoding.md rules R82, R90). -/
namespace Sys2Proof

/-- A legal command (30_encoding.md rule R82). `sel` is the `SEL` bit of the three 8-byte operations (R83). -/
inductive Instr where
  | nop
  | alpha (sel : BitVec 1)
  | colorrgb (sel : BitVec 1)
  | srst
  | dxt1 (sel : BitVec 1)
  | dxt5
  | dxt5f
  deriving DecidableEq, Repr

/-- Why a 32-bit word is no command (30_encoding.md rules R84, R85, R87). All three are illegal alike. -/
inductive Illegal where
  /-- bits 31:5 are not all 0 (R84) -/
  | rsvNonZero
  /-- `SEL = 1` on an operation that does not use it (R85) -/
  | selNonZero
  /-- `OP` is 0x4 to 0xA, 0xC or 0xD (R82) -/
  | noOperation
  deriving DecidableEq, Repr

/-- The registers of the register map (10_state.md rule R21). -/
inductive Reg where
  | cmd | status | dst | stride | blk0 | blk1 | blk2 | blk3 | faddr
  deriving DecidableEq, Repr

/-- One step of the host (00_scope.md rule R16, 30_encoding.md rules R90, R91). `bits` is the width of a register access
and `off` its byte offset; the interface carries only 32-bit accesses at multiples of 4 (10_state.md rule R31). -/
inductive HostOp where
  /-- a register write of `v` at offset `off` -/
  | regWrite (bits off : Nat) (v : Word)
  /-- a register read at offset `off` -/
  | regRead (bits off : Nat)
  /-- `MWR a, v`: a host byte write of the pixel memory -/
  | memWrite (a : Word) (v : Byte)
  /-- `MRD a`: a host byte read of the pixel memory -/
  | memRead (a : Word)
  /-- `WAIT`: read `STATUS` until the value read has `BUSY = 0` (44_host_sequences.md rule R160) -/
  | wait
  deriving DecidableEq, Repr

end Sys2Proof
end

