-- ==== Sys2Proof/WellFormed.lean ====
section
/-! DEFINITION. Well-formedness: of a command word (the legality of 30_encoding.md rule R85), of a command, and of a host step (the access rule of 10_state.md rule R31). -/
namespace Sys2Proof

/-- `Legal(w)` of 30_encoding.md rule R85, in the rule's own terms. -/
def legal (w : Word) : Bool :=
  w.extractLsb' 5 27 == 0 &&
    ((w.extractLsb' 0 4 == 0x1 || w.extractLsb' 0 4 == 0x2 || w.extractLsb' 0 4 == 0xB) ||
      ((w.extractLsb' 0 4 == 0x0 || w.extractLsb' 0 4 == 0x3 || w.extractLsb' 0 4 == 0xE || w.extractLsb' 0 4 == 0xF)
        && w.extractLsb' 4 1 == 0))

/-- Every command of the syntax is well formed: its one operand, `SEL`, is a bit, and each value of it is legal (R83, R85). -/
def Instr.wellFormed : Instr → Bool
  | .nop => true
  | .alpha _ => true
  | .colorrgb _ => true
  | .srst => true
  | .dxt1 _ => true
  | .dxt5 => true
  | .dxt5f => true

/-- A register access the interface carries: 32 bits wide, at a multiple of 4 (10_state.md rule R31). -/
def portAccessOk (bits off : Nat) : Bool := bits == 32 && off % 4 == 0

/-- A host step the spec gives a meaning (10_state.md rule R31; pixel-memory accesses and `WAIT` have no form to break). -/
def HostOp.wellFormed : HostOp → Bool
  | .regWrite bits off _ => portAccessOk bits off
  | .regRead bits off => portAccessOk bits off
  | .memWrite _ _ => true
  | .memRead _ => true
  | .wait => true

end Sys2Proof
end

