-- ==== Sys2Proof/Decode.lean ====
section
/-! DEFINITION. Decoding a command word, rejecting by name, and encoding a command (30_encoding.md rules R81 to R89). -/
namespace Sys2Proof

/-- `OP`, bits 3:0 (R81). -/
def opField (w : Word) : BitVec 4 := w.extractLsb' 0 4

/-- `SEL`, bit 4 (R81). -/
def selField (w : Word) : BitVec 1 := w.extractLsb' 4 1

/-- `RSV`, bits 31:5 (R81). -/
def rsvField (w : Word) : BitVec 27 := w.extractLsb' 5 27

/-- A command that does not use `SEL`: the field must be 0 (R83). -/
def withoutSel (sel : BitVec 1) (i : Instr) : Except Illegal Instr :=
  if sel = 0 then .ok i else .error .selNonZero

/-- The command a word with `RSV = 0` names, by its `OP` and `SEL` (R82). -/
def decodeOp (op : BitVec 4) (sel : BitVec 1) : Except Illegal Instr :=
  match op.toNat with
  | 0x0 => withoutSel sel .nop
  | 0x1 => .ok (.alpha sel)
  | 0x2 => .ok (.colorrgb sel)
  | 0x3 => withoutSel sel .srst
  | 0xB => .ok (.dxt1 sel)
  | 0xE => withoutSel sel .dxt5
  | 0xF => withoutSel sel .dxt5f
  | _ => .error .noOperation

/-- The decode of a command word: a function of the word alone (R89). -/
def decode (w : Word) : Except Illegal Instr :=
  if rsvField w = 0 then decodeOp (opField w) (selField w) else .error .rsvNonZero

/-- The operation code of a command (R82). -/
def Instr.opcode : Instr → BitVec 4
  | .nop => 0x0
  | .alpha _ => 0x1
  | .colorrgb _ => 0x2
  | .srst => 0x3
  | .dxt1 _ => 0xB
  | .dxt5 => 0xE
  | .dxt5f => 0xF

/-- The `SEL` bit of a command, 0 where the command does not use it (R83). -/
def Instr.selBit : Instr → BitVec 1
  | .nop => 0
  | .alpha sel => sel
  | .colorrgb sel => sel
  | .srst => 0
  | .dxt1 sel => sel
  | .dxt5 => 0
  | .dxt5f => 0

/-- The word of a command: `RSV = 0` above `SEL` above `OP` (R81). -/
def encode (i : Instr) : Word := (0 : BitVec 27) ++ i.selBit ++ i.opcode

/-- The `match` and `mask` of the seven rows of opcode_table.json, in its order (R85). -/
def opcodeRows : List (Word × Word) :=
  [(0x00000000, 0xFFFFFFFF), (0x00000001, 0xFFFFFFEF), (0x00000002, 0xFFFFFFEF), (0x00000003, 0xFFFFFFFF),
    (0x0000000B, 0xFFFFFFEF), (0x0000000E, 0xFFFFFFFF), (0x0000000F, 0xFFFFFFFF)]

/-- A word selects a row exactly when `w AND mask = match` (R85). -/
def selectsRow (w : Word) (row : Word × Word) : Bool := (w &&& row.2) == row.1

/-- What the decoder reads from a table row's bits. A command is one 32-bit word (R88), so the first word's bits are the
number itself; bits above `nbits` are 0. -/
def decodeTableWord (nbits w : Nat) : Option Instr :=
  (decode (BitVec.ofNat 32 (w % 2 ^ nbits))).toOption

end Sys2Proof
end

