-- ==== Sys2Proof/Machine/State.lean ====
section
/-! DEFINITION. The state of KHDXT (10_state.md rule R39), the environment the step takes its choices from (R35), the reasons a step can stop, and the state after reset (R38). -/
namespace Sys2Proof.Machine

/-- The operation of the in-flight record (10_state.md rule R36). `DXT5F` launches as `dxt5`. -/
inductive Op where
  | alpha | colorrgb | dxt1 | dxt5
  deriving DecidableEq, Repr

/-- The in-flight record `F` (R36): the engine's own copy of the operands of a launched operation, and the number `k` of
entries of its write sequence already performed. -/
structure InFlight where
  op : Op
  blk : Vector Byte 16
  sel : BitVec 1
  dst : Word
  stride : Word
  k : Nat
  deriving DecidableEq, Repr

/-- The errors of the hardware (60_exceptions.md rule R176). -/
inductive Err where
  | illOp | busyCmd | bus
  deriving DecidableEq, Repr

/-- The pixel memory (R34): the bytes written since power-on, as (address, byte) pairs with strictly rising addresses.
An address that is not listed still holds its power-on byte, `Config.powerOnByte` (log entry 1). -/
abbrev Memory := List Host.Cell

/-- Addresses `lo` to `hi`, both included, that accept a byte write of the engine. Every set of 32-bit addresses is a
finite union of such ranges, so a list of them is any `Writable : address -> Bool` (00_scope.md rule R7). -/
structure Region where
  lo : Word
  hi : Word
  deriving DecidableEq, Repr

/-- Whose step comes next: the host's, the engine's (00_scope.md rule R16), or one in which the reset input `rst` is
asserted (70_reset_and_hazards.md rule R200). -/
inductive Agent where
  | host | engine | rst
  deriving DecidableEq, Repr

/-- What one read of the host returned. -/
inductive Reading where
  | reg (off : Nat) (v : Word)
  | mem (a : Word) (v : Byte)
  deriving DecidableEq, Repr

/-- The state. The fields down to `mem` are the record of 10_state.md rule R39. The last four are the MODEL'S OWN: the
parameters and the host behaviour that R35 keeps outside the block, held as plain data so that one deterministic step can
take every choice the spec leaves open from them (log entries 2, 3, 4, 5). -/
@[ext]
structure State where
  /-- `STATUS.BUSY`, bit 0 (R26) -/
  busy : Bool
  /-- `STATUS.DONE`, bit 1 (R26) -/
  done : Bool
  /-- `STATUS.ERR`, bits 6:4 (R26) -/
  err : BitVec 3
  dst : Word
  stride : Word
  blk0 : Word
  blk1 : Word
  blk2 : Word
  blk3 : Word
  faddr : Word
  /-- the in-flight record, meaningful only while `busy` (R36, R37) -/
  f : InFlight
  mem : Memory
  /-- the platform's `Writable` (R7); no step changes it -/
  writable : List Region
  /-- the host's remaining steps, next first (R35: "the host's behaviour") -/
  script : List HostOp
  /-- whose steps come next, next first; when it is empty the engine goes before the host (log entry 3) -/
  sched : List Agent
  /-- what the host's reads have returned, newest first -/
  reads : List Reading
  deriving DecidableEq, Repr

/-- Reasons the machine stops. -/
inductive Fault where
  /-- Raised by the engine step when `BUSY = 1` and the write sequence has no entry `F.k`: a state that no run reaches,
  since completion is part of the step that performs the last entry (20_memory.md rule R62, 90_conflicts.md C8). SAFE: the
  spec gives such a state no step, and the model stops (log entry 8). -/
  | noSuchWriteEntry
  deriving DecidableEq, Repr

/-- Reasons a step has no meaning. -/
inductive Refusal where
  /-- An instruction without a meaning; no arm of `exec` answers it in this model. SAFE. -/
  | notModelled (mnemonic : String)
  /-- Raised by a host register access that is not 32 bits wide or not at a multiple of 4: "outside the interface: the spec
  gives it no meaning and a model refuses it" (10_state.md rule R31, 93 entry U3). SAFE (log entry 9). -/
  | portAccess (bits off : Nat)
  deriving DecidableEq, Repr

/-- The in-flight record the model names for the state after reset. It is meaningless there and no rule reads it
(10_state.md rules R37, R38; DESIGN CHOICE, log entry 6). -/
def InFlight.idle : InFlight :=
  { op := .alpha, blk := Vector.replicate 16 0, sel := 0, dst := 0, stride := 0, k := 0 }

/-- The state right after power-on and hardware reset (R38, R200), on a platform whose `Writable` is given. -/
def State.powerOn (writable : List Region) : State :=
  { busy := false, done := false, err := 0, dst := 0, stride := 0, blk0 := 0, blk1 := 0, blk2 := 0, blk3 := 0, faddr := 0,
    f := InFlight.idle, mem := [], writable := writable, script := [], sched := [], reads := [] }

/-- The state right after reset. The spec leaves `Writable` open; this one state takes the platform on which every address
accepts a write (DESIGN CHOICE, log entry 2), and its host has no step left to do. -/
def State.reset : State := State.powerOn [{ lo := 0x00000000, hi := 0xFFFFFFFF }]

end Sys2Proof.Machine
end

