-- ==== Sys2Proof/Machine/Ops.lean ====
section
/-! DEFINITION. The named operations over memory and registers: the byte memory, the engine's write primitive, the latching of an error, the handling every command but SRST begins with, and reset. -/
namespace Sys2Proof.Machine

/-! The pixel memory (10_state.md rule R34). -/

/-- The byte written at address `a` since power-on, if any was. -/
def Memory.lookup : Memory → Nat → Option Byte
  | [], _ => none
  | (b, v) :: m, a => if a = b then some v else Memory.lookup m a

/-- What a read of address `a` returns: the last byte written there, else the power-on byte (R34, log entry 1). -/
def Memory.read (m : Memory) (a : Nat) : Byte := (Memory.lookup m a).getD (Config.powerOnByte a)

/-- `m[a := v]`, keeping the addresses strictly rising. -/
def Memory.write : Memory → Nat → Byte → Memory
  | [], a, v => [(a, v)]
  | (b, w) :: m, a, v =>
    if a < b then (a, v) :: (b, w) :: m
    else if a = b then (a, v) :: m
    else (b, w) :: Memory.write m a v

/-- The addresses of `m` are above `b`, strictly rising, and 32 bits wide. -/
def Memory.above (b : Nat) : Memory → Bool
  | [] => true
  | (a, _) :: m => decide (b < a) && decide (a < 2 ^ 32) && Memory.above a m

/-- The canonical form: addresses strictly rising, all in the 32-bit address space (20_memory.md rule R50). -/
def Memory.wf : Memory → Bool
  | [] => true
  | (a, _) :: m => decide (a < 2 ^ 32) && Memory.above a m

/-- `foldl (fun m (a, v) => m[a := v])` over a write sequence (20_memory.md rule R72). -/
def Memory.applyWrites (m : Memory) (ws : List (Word × Byte)) : Memory :=
  ws.foldl (fun m w => Memory.write m w.1.toNat w.2) m

/-- The byte the host reads at a 32-bit address. -/
def State.readByte (s : State) (a : Word) : Byte := Memory.read s.mem a.toNat

/-- A byte stored at a 32-bit address. -/
def State.storeByte (s : State) (a : Word) (v : Byte) : State := { s with mem := Memory.write s.mem a.toNat v }

/-- `Writable(addr)` (00_scope.md rule R7). -/
def State.isWritable (s : State) (a : Word) : Bool :=
  s.writable.any fun r => r.lo.toNat ≤ a.toNat && a.toNat ≤ r.hi.toNat

/-- `MemWrite(addr, 1, v)`, the engine's only way to change the memory: `some` is `ok`, `none` is `err`
(20_memory.md rule R56). -/
def State.memWrite (s : State) (a : Word) (v : Byte) : Option State :=
  if s.isWritable a then some (s.storeByte a v) else none

/-! Errors, the exceptions of this hardware (60_exceptions.md). -/

/-- The code of an error in `STATUS.ERR` (R176). -/
def Err.code : Err → BitVec 3
  | .illOp => 1
  | .busyCmd => 2
  | .bus => 3

/-- What `FADDR` holds after an error is recorded: `Bus` records the address, the others nothing more (R176, R178). -/
def Err.recordedAddr (e : Err) (info old : Word) : Word :=
  match e with
  | .illOp => old
  | .busyCmd => old
  | .bus => info

/-- `raise E(info)`: the first error since reset or `SRST` is latched, a later one is not recorded (R177, R178). There is
no handler and no saved program counter: this is the whole of taking an exception (R175, R185). -/
def State.raise (s : State) (e : Err) (info : Word) : State :=
  if s.err = 0 then { s with err := e.code, faddr := e.recordedAddr info s.faddr } else s

/-- Lines 2 and 3 of 30_encoding.md rule R80, which every `CMD` write but `SRST` meets first: dropped under a latched
error, `BusyCmd` while busy; otherwise `effect`. -/
def State.command (s : State) (effect : State → State) : State :=
  if s.err ≠ 0 then s
  else if s.busy then s.raise .busyCmd 0
  else effect s

/-- The reset values of every register (10_state.md rule R38). Reset and `SRST` leave the pixel memory alone (R202); the
in-flight record is meaningless once `BUSY = 0` and stays as it was (R37, log entry 6). It is also the only return from the
latched-error state (60_exceptions.md rule R187). -/
def State.resetRegs (s : State) : State :=
  { s with
    busy := false, done := false, err := 0, dst := 0, stride := 0
    blk0 := 0, blk1 := 0, blk2 := 0, blk3 := 0, faddr := 0 }

/-! The environment (10_state.md rule R35). -/

/-- Whose step comes next: the schedule's choice, and once it is empty the engine's while it is busy, else the host's
(log entry 3). -/
def State.nextAgent (s : State) : Agent :=
  match s.sched with
  | a :: _ => a
  | [] => if s.busy then .engine else .host

/-- The state with the schedule's choice for this step used up. -/
def State.dropSched (s : State) : State := { s with sched := s.sched.tail }

/-- The state with the host's remaining steps replaced. -/
def State.setScript (s : State) (script : List HostOp) : State := { s with script := script }

/-- The host has received what a read returned. -/
def State.received (s : State) (r : Reading) : State := { s with reads := r :: s.reads }

end Sys2Proof.Machine
end

