-- ==== Sys2Proof/Machine/Operands.lean ====
section
/-! DEFINITION. The operands of a decode command: byte order, the sixteen block bytes, the half an 8-byte operation takes, and the address of every lane of every pixel (20_memory.md rules R53, R57; 30_encoding.md rule R83). -/
namespace Sys2Proof.Machine

/-- Eight block bytes: a colour block or an alpha block. -/
abbrev Block8 := Vector Byte 8

/-- The four bytes of a pixel, in address order (00_scope.md rule R13). -/
inductive Lane where
  | r | g | b | a
  deriving DecidableEq, Repr

/-- The lane's number, which is its offset in the pixel (R13). -/
def Lane.index : Lane → Nat
  | .r => 0
  | .g => 1
  | .b => 2
  | .a => 3

/-- `le16(b0, b1)` (00_scope.md rule R9). -/
def le16 (b0 b1 : Byte) : BitVec 16 := b1 ++ b0

/-- `le32(b0, b1, b2, b3)` (R9). -/
def le32 (b0 b1 b2 b3 : Byte) : BitVec 32 := b3 ++ b2 ++ b1 ++ b0

/-- `le48(b0, .., b5)` (R9). -/
def le48 (b0 b1 b2 b3 b4 b5 : Byte) : BitVec 48 := b5 ++ b4 ++ b3 ++ b2 ++ b1 ++ b0

/-- Byte `j` of a block register: bits `8j+7 : 8j` (10_state.md rule R22). -/
def regByte (w : Word) (j : Nat) : Byte := w.extractLsb' (8 * j) 8

/-- The sixteen block bytes held in `BLK0..BLK3` (R22). -/
def State.blockBytes (s : State) : Vector Byte 16 :=
  #v[regByte s.blk0 0, regByte s.blk0 1, regByte s.blk0 2, regByte s.blk0 3,
    regByte s.blk1 0, regByte s.blk1 1, regByte s.blk1 2, regByte s.blk1 3,
    regByte s.blk2 0, regByte s.blk2 1, regByte s.blk2 2, regByte s.blk2 3,
    regByte s.blk3 0, regByte s.blk3 1, regByte s.blk3 2, regByte s.blk3 3]

/-- Block bytes 0 to 7 (42_dxt5_block.md rule R135). -/
def lowHalf (blk : Vector Byte 16) : Block8 :=
  #v[blk[0], blk[1], blk[2], blk[3], blk[4], blk[5], blk[6], blk[7]]

/-- Block bytes 8 to 15 (R135). -/
def highHalf (blk : Vector Byte 16) : Block8 :=
  #v[blk[8], blk[9], blk[10], blk[11], blk[12], blk[13], blk[14], blk[15]]

/-- `half(F)`: the 8 bytes `SEL` chooses (30_encoding.md rule R83). -/
def InFlight.half (f : InFlight) : Block8 := if f.sel = 0 then lowHalf f.blk else highHalf f.blk

/-- `base(F, i)`: the address of lane 0 of pixel `i`, modulo 2^32 (20_memory.md rule R57). -/
def InFlight.base (f : InFlight) (i : Nat) : Word :=
  f.dst + BitVec.ofNat 32 (i / 4) * f.stride + BitVec.ofNat 32 (i % 4 * 4)

/-- The address of a lane of pixel `i` (R57). -/
def InFlight.laneAddr (f : InFlight) (i : Nat) (l : Lane) : Word := f.base i + BitVec.ofNat 32 l.index

end Sys2Proof.Machine
end

