-- ==== Sys2Proof/Machine/Flags.lean ====
section
/-! DEFINITION. STATUS and its flags: the word a read returns, and what launch, completion, NOP and a refused write do to BUSY and DONE (10_state.md rule R26). -/
namespace Sys2Proof.Machine

/-- The word a read of `STATUS` returns: `BUSY` in bit 0, `DONE` in bit 1, `ERR` in bits 6:4, every other bit 0
(10_state.md rule R26). -/
def State.statusWord (s : State) : Word :=
  (0 : BitVec 25) ++ s.err ++ (0 : BitVec 2) ++ BitVec.ofBool s.done ++ BitVec.ofBool s.busy

/-- The flags of a launch: `BUSY <- 1`, `DONE <- 0` (30_encoding.md rule R86). -/
def State.flagLaunch (s : State) : State := { s with busy := true, done := false }

/-- The flags of completion: `BUSY <- 0`, `DONE <- 1` (20_memory.md rule R62). -/
def State.flagComplete (s : State) : State := { s with busy := false, done := true }

/-- The flag of `NOP`: `DONE <- 1` (43_system_ops.md rule R150). -/
def State.flagDone (s : State) : State := { s with done := true }

/-- The flag of a refused write: `BUSY <- 0` (60_exceptions.md rule R181). -/
def State.flagAbort (s : State) : State := { s with busy := false }

/-- Launch: the operands are copied into the in-flight record as they are in this step (30_encoding.md rule R86; log entry 15). -/
def State.launch (s : State) (op : Op) (sel : BitVec 1) : State :=
  { s with f := { op := op, blk := s.blockBytes, sel := sel, dst := s.dst, stride := s.stride, k := 0 } }.flagLaunch

end Sys2Proof.Machine
end

