-- ==== Sys2Proof/Machine/AlphaBlock.lean ====
section
/-! DEFINITION. The alpha block decode and the command ALPHA (41_alpha_block.md). -/
namespace Sys2Proof.Machine

/-- `alpha0` (41_alpha_block.md rule R120). -/
def alpha0 (a : Block8) : Byte := a[0]

/-- `alpha1` (R120). -/
def alpha1 (a : Block8) : Byte := a[1]

/-- The 48-bit alpha index field (R120). -/
def aidx (a : Block8) : BitVec 48 := le48 a[2] a[3] a[4] a[5] a[6] a[7]

/-- Eight-value mode: the endpoint bytes compared as unsigned integers (R122). -/
def eightValue (a : Block8) : Bool := (alpha1 a).toNat < (alpha0 a).toNat

/-- `((d+1-i)*alpha0 + (i-1)*alpha1) div d`, the interpolated entry `i` of a mode with divisor `d` (R122). -/
def ramp (d i : Nat) (a : Block8) : Byte :=
  BitVec.ofNat 8 (((d + 1 - i) * (alpha0 a).toNat + (i - 1) * (alpha1 a).toNat) / d)

/-- `Pal8(a)[j]` (R121, R122). -/
def pal8 (a : Block8) (j : BitVec 3) : Byte :=
  match j.toNat with
  | 0 => alpha0 a
  | 1 => alpha1 a
  | i =>
    if eightValue a then ramp 7 i a
    else if i = 6 then 0
    else if i = 7 then 255
    else ramp 5 i a

/-- `ai(a, i)`, the 3-bit palette index of pixel `i` (R124). -/
def ai (a : Block8) (i : Nat) : BitVec 3 := (aidx a).extractLsb' (3 * i) 3

/-- `ALPHA s`: launch with `F.op = ALPHA` (R126). -/
def execAlpha (sel : BitVec 1) (s : State) : Host.Outcome State Fault Refusal :=
  .next (s.command fun s => s.launch .alpha sel)

end Sys2Proof.Machine
end

