-- ==== Sys2Proof/Machine/ColorBlock.lean ====
section
/-! DEFINITION. The colour block decode and the commands DXT1 and COLORRGB (40_color_block.md). -/
namespace Sys2Proof.Machine

/-- A palette entry: four bytes R, G, B, A (40_color_block.md rule R102). -/
structure Rgba where
  r : Byte
  g : Byte
  b : Byte
  a : Byte
  deriving DecidableEq, Repr

/-- The byte of an entry that a lane receives. -/
def Rgba.lane (e : Rgba) : Lane → Byte
  | .r => e.r
  | .g => e.g
  | .b => e.b
  | .a => e.a

/-- `color0`, little-endian (R100; 20_memory.md rule R53; log entry 14). -/
def color0 (cb : Block8) : BitVec 16 := le16 cb[0] cb[1]

/-- `color1`, little-endian (R100; R53). -/
def color1 (cb : Block8) : BitVec 16 := le16 cb[2] cb[3]

/-- The 32-bit colour index field (R100). -/
def cidx (cb : Block8) : BitVec 32 := le32 cb[4] cb[5] cb[6] cb[7]

/-- Red, bits 15:11 of a PackedColor565 (R101). -/
def r5 (p : BitVec 16) : BitVec 5 := p.extractLsb' 11 5

/-- Green, bits 10:5 (R101). -/
def g6 (p : BitVec 16) : BitVec 6 := p.extractLsb' 5 6

/-- Blue, bits 4:0 (R101). -/
def b5 (p : BitVec 16) : BitVec 5 := p.extractLsb' 0 5

/-- Expansion of a 5-bit field to a byte: a plain left shift by 3 (R101; 90_conflicts.md C1; log entry 14). -/
def expand5 (v : BitVec 5) : Byte := v.zeroExtend 8 <<< 3

/-- Expansion of the 6-bit field to a byte: a plain left shift by 2 (R101; C1). -/
def expand6 (v : BitVec 6) : Byte := v.zeroExtend 8 <<< 2

/-- A packed colour expanded at full opacity: `e0` and `e1` of rule R102. -/
def expand565 (p : BitVec 16) : Rgba := { r := expand5 (r5 p), g := expand6 (g6 p), b := expand5 (b5 p), a := 255 }

/-- `(2u + v) div 3` on the expanded channel values, in the naturals (R103, R104). -/
def third (u v : Byte) : Byte := BitVec.ofNat 8 ((2 * u.toNat + v.toNat) / 3)

/-- `(u + v) div 2` (R103). -/
def average (u v : Byte) : Byte := BitVec.ofNat 8 ((u.toNat + v.toNat) / 2)

/-- A channel function applied to the three colour channels, alpha 255. -/
def Rgba.mix (f : Byte → Byte → Byte) (u v : Rgba) : Rgba := { r := f u.r v.r, g := f u.g v.g, b := f u.b v.b, a := 255 }

/-- Four-colour mode: the packed 16-bit values compared as unsigned integers (R103). -/
def fourColor (c : Block8) : Bool := (color1 c).toNat < (color0 c).toNat

/-- `Pal4(c)[j]` (R102, R103). -/
def pal4 (c : Block8) (j : BitVec 2) : Rgba :=
  let e0 := expand565 (color0 c)
  let e1 := expand565 (color1 c)
  match j.toNat with
  | 0 => e0
  | 1 => e1
  | 2 => if fourColor c then Rgba.mix third e0 e1 else Rgba.mix average e0 e1
  | _ => if fourColor c then Rgba.mix third e1 e0 else { r := 0, g := 0, b := 0, a := 0 }

/-- `ci(c, i)`, the 2-bit palette index of pixel `i` (R105). -/
def ci (c : Block8) (i : Nat) : BitVec 2 := (cidx c).extractLsb' (2 * i) 2

/-- `DXT1 s`: launch with `F.op = DXT1` (R107). -/
def execDxt1 (sel : BitVec 1) (s : State) : Host.Outcome State Fault Refusal :=
  .next (s.command fun s => s.launch .dxt1 sel)

/-- `COLORRGB s`: launch with `F.op = COLORRGB` (R108). -/
def execColorrgb (sel : BitVec 1) (s : State) : Host.Outcome State Fault Refusal :=
  .next (s.command fun s => s.launch .colorrgb sel)

end Sys2Proof.Machine
end

