-- ==== Sys2Proof/Machine/Dxt5Block.lean ====
section
/-! DEFINITION. The combined decode of a 16-byte DXT5 block and the commands DXT5 and DXT5F (42_dxt5_block.md). -/
namespace Sys2Proof.Machine

/-- The value a lane of pixel `i` receives from a 16-byte block: R, G, B from the colour half, A from the alpha half
(42_dxt5_block.md rules R135, R137). -/
def dxt5Value (blk : Vector Byte 16) (i : Nat) (l : Lane) : Byte :=
  match l with
  | .a => pal8 (lowHalf blk) (ai (lowHalf blk) i)
  | .r => (pal4 (highHalf blk) (ci (highHalf blk) i)).r
  | .g => (pal4 (highHalf blk) (ci (highHalf blk) i)).g
  | .b => (pal4 (highHalf blk) (ci (highHalf blk) i)).b

/-- `DXT5`: launch with `F.op = DXT5` (R138). -/
def execDxt5 (s : State) : Host.Outcome State Fault Refusal :=
  .next (s.command fun s => s.launch .dxt5 0)

/-- `DXT5F`: the same operation; the launch sets `F.op = DXT5` (R139). -/
def execDxt5f (s : State) : Host.Outcome State Fault Refusal :=
  .next (s.command fun s => s.launch .dxt5 0)

end Sys2Proof.Machine
end

