-- ==== Sys2Proof/Machine/WriteSeq.lean ====
section
/-! DEFINITION. The write sequence of an operation: its lanes, its values, and the ordered list of (address, byte) pairs (20_memory.md rule R58). -/
namespace Sys2Proof.Machine

/-- `lanes(F.op)`, ascending (20_memory.md rule R58). -/
def Op.lanes : Op → List Lane
  | .alpha => [.a]
  | .colorrgb => [.r, .g, .b]
  | .dxt1 => [.r, .g, .b, .a]
  | .dxt5 => [.r, .g, .b, .a]

/-- `value(F, i, l)` (40_color_block.md rule R106, 41_alpha_block.md rule R125, 42_dxt5_block.md rule R137). For `ALPHA`
only lane A has a value, and the write sequence asks for no other. -/
def InFlight.value (f : InFlight) (i : Nat) (l : Lane) : Byte :=
  match f.op with
  | .alpha => pal8 f.half (ai f.half i)
  | .colorrgb => (pal4 f.half (ci f.half i)).lane l
  | .dxt1 => (pal4 f.half (ci f.half i)).lane l
  | .dxt5 => dxt5Value f.blk i l

/-- The entries of pixel `i`, lanes ascending. -/
def InFlight.pixelWrites (f : InFlight) (i : Nat) : List (Word × Byte) :=
  f.op.lanes.map fun l => (f.laneAddr i l, f.value i l)

/-- `WS(F)`: the entries of pixels 0 to 15, in that order (R58). -/
def InFlight.writeSeq (f : InFlight) : List (Word × Byte) := (List.range 16).flatMap f.pixelWrites

end Sys2Proof.Machine
end

