-- ==== Sys2Proof/Machine/Engine.lean ====
section
/-! DEFINITION. The engine's step: one byte write of the operation in flight, completion in the step of the last write, and the bus error of a refused one (20_memory.md rules R59, R62; 60_exceptions.md rule R181). -/
namespace Sys2Proof.Machine

/-- `F.k <- F.k + 1` (R59). -/
def State.advance (s : State) : State := { s with f := { s.f with k := s.f.k + 1 } }

/-- After an accepted write: `F.k <- F.k + 1`, and completion when that was the last entry (R59, R62). -/
def State.wrote (s : State) : State :=
  if s.f.k + 1 = s.f.writeSeq.length then s.advance.flagComplete else s.advance

/-- A refused write at `a`: `raise Bus(a)` and `BUSY <- 0`; nothing is written and `F.k` stays (R181). -/
def State.busError (s : State) (a : Word) : State := (s.raise .bus a).flagAbort

/-- The engine's step for the entry `(a, v)`. -/
def engineWrite (a : Word) (v : Byte) (s : State) : State :=
  match s.memWrite a v with
  | some t => t.wrote
  | none => s.busError a

/-- The engine step, enabled when `BUSY = 1` (R59). -/
def engineStep (s : State) : Host.Outcome State Fault Refusal :=
  match s.f.writeSeq[s.f.k]? with
  | some w => .next (engineWrite w.1 w.2 s)
  | none => .fault .noSuchWriteEntry

end Sys2Proof.Machine
end

