-- ==== Sys2Proof/Machine/SystemOps.lean ====
section
/-! DEFINITION. The system commands NOP and SRST (43_system_ops.md). -/
namespace Sys2Proof.Machine

/-- `NOP`: `DONE <- 1`, nothing else (43_system_ops.md rule R150). -/
def execNop (s : State) : Host.Outcome State Fault Refusal := .next (s.command State.flagDone)

/-- `SRST`: accepted in every state, before the `ERR` and `BUSY` tests (R151; 30_encoding.md rule R80 line 1). -/
def execSrst (s : State) : Host.Outcome State Fault Refusal := .next s.resetRegs

end Sys2Proof.Machine
end

