-- ==== Sys2Proof/Machine/Dispatch.lean ====
section
/-! DEFINITION. The meaning of a command, one arm per constructor (30_encoding.md rule R82). -/
namespace Sys2Proof.Machine

def exec (i : Instr) (s : State) : Host.Outcome State Fault Refusal :=
  match i with
  | .nop => Sys2Proof.Machine.execNop s
  | .alpha sel => Sys2Proof.Machine.execAlpha sel s
  | .colorrgb sel => Sys2Proof.Machine.execColorrgb sel s
  | .srst => Sys2Proof.Machine.execSrst s
  | .dxt1 sel => Sys2Proof.Machine.execDxt1 sel s
  | .dxt5 => Sys2Proof.Machine.execDxt5 s
  | .dxt5f => Sys2Proof.Machine.execDxt5f s

end Sys2Proof.Machine
end

