-- ==== Sys2Proof/Machine/Port.lean ====
section
/-! DEFINITION. The host's register port and its accesses to the pixel memory: the register map, the handling of a CMD write, and one host step (10_state.md rules R20 to R32; 30_encoding.md rule R80). -/
namespace Sys2Proof.Machine

/-- The byte offset of a register (10_state.md rule R21; log entry 12). -/
def regOffset : Reg → Nat
  | .cmd => 0x00
  | .status => 0x04
  | .dst => 0x08
  | .stride => 0x0C
  | .blk0 => 0x10
  | .blk1 => 0x14
  | .blk2 => 0x18
  | .blk3 => 0x1C
  | .faddr => 0x20

/-- The register at a byte offset; `none` at a reserved one (R21, R30). -/
def regAt (off : Nat) : Option Reg :=
  match off with
  | 0x00 => some .cmd
  | 0x04 => some .status
  | 0x08 => some .dst
  | 0x0C => some .stride
  | 0x10 => some .blk0
  | 0x14 => some .blk1
  | 0x18 => some .blk2
  | 0x1C => some .blk3
  | 0x20 => some .faddr
  | _ => none

/-- What a read of a register returns; `CMD` holds nothing and reads as 0 (R21, R25). -/
def State.regValue (s : State) : Reg → Word
  | .cmd => 0
  | .status => s.statusWord
  | .dst => s.dst
  | .stride => s.stride
  | .blk0 => s.blk0
  | .blk1 => s.blk1
  | .blk2 => s.blk2
  | .blk3 => s.blk3
  | .faddr => s.faddr

/-- What a 32-bit read at an offset returns; a reserved offset reads as 0 (R30). -/
def State.portValue (s : State) (off : Nat) : Word :=
  match regAt off with
  | some r => s.regValue r
  | none => 0

/-- A host write to a register other than `CMD`, also while busy; writes to `STATUS` and `FADDR` are ignored (R21, R32). -/
def State.setReg (s : State) (r : Reg) (v : Word) : State :=
  match r with
  | .cmd => s
  | .status => s
  | .dst => { s with dst := v }
  | .stride => { s with stride := v }
  | .blk0 => { s with blk0 := v }
  | .blk1 => { s with blk1 := v }
  | .blk2 => { s with blk2 := v }
  | .blk3 => { s with blk3 := v }
  | .faddr => s

/-- A word that is no command: lines 2, 3 and 4 of rule R80; `IllOp` when idle with no latched error
(60_exceptions.md rule R179). -/
def illegalCommand (s : State) : State := s.command fun s => s.raise .illOp 0

/-- A host write of `w` to `CMD` (30_encoding.md rule R80). -/
def cmdWrite (w : Word) (s : State) : Host.Outcome State Fault Refusal :=
  match decode w with
  | .ok i => exec i s
  | .error _ => .next (illegalCommand s)

/-- A host register write (R20, R21, R30, R31). -/
def portWrite (bits off : Nat) (v : Word) (s : State) : Host.Outcome State Fault Refusal :=
  if portAccessOk bits off then
    match regAt off with
    | some .cmd => cmdWrite v s
    | some r => .next (s.setReg r v)
    | none => .next s
  else .refused (.portAccess bits off)

/-- A host register read, which changes nothing but what the host has received (R20, R26, R30, R31). -/
def portRead (bits off : Nat) (s : State) : Host.Outcome State Fault Refusal :=
  if portAccessOk bits off then .next (s.received (.reg off (s.portValue off)))
  else .refused (.portAccess bits off)

/-- One poll of `WAIT`: a read of `STATUS`, repeated in the host's next step while the value read has `BUSY = 1`
(44_host_sequences.md rule R160; log entry 10). -/
def waitPoll (s : State) : State :=
  let t := s.received (.reg (regOffset .status) s.statusWord)
  if s.busy then t.setScript (.wait :: t.script) else t

/-- One host step (00_scope.md rule R16). A host access to the pixel memory reads or writes one byte (20_memory.md rules
R55, R65; log entry 7). -/
def hostOp (op : HostOp) (s : State) : Host.Outcome State Fault Refusal :=
  match op with
  | .regWrite bits off v => portWrite bits off v s
  | .regRead bits off => portRead bits off s
  | .memWrite a v => .next (s.storeByte a v)
  | .memRead a => .next (s.received (.mem a (s.readByte a)))
  | .wait => .next (waitPoll s)

/-- The host's turn: its next step, or nothing when it has no more steps (70_reset_and_hazards.md rules R203, R213). -/
def hostTurn (s : State) : Host.Outcome State Fault Refusal :=
  match s.script with
  | [] => .next s
  | op :: rest => hostOp op (s.setScript rest)

/-- The engine's turn: its step while `BUSY = 1`; it has no enabled step otherwise (20_memory.md rules R59, R62). -/
def engineTurn (s : State) : Host.Outcome State Fault Refusal :=
  if s.busy then engineStep s else .next s

/-- A step in which `rst` is asserted: the registers take their reset values, an operation in flight is abandoned, the
pixel memory stays, and neither the host nor the engine moves (70_reset_and_hazards.md rules R200, R201, R202; log entry 11). -/
def hardReset (s : State) : State := s.resetRegs

/-- The turn of an agent. -/
def agentTurn (a : Agent) (s : State) : Host.Outcome State Fault Refusal :=
  match a with
  | .host => hostTurn s
  | .engine => engineTurn s
  | .rst => .next (hardReset s)

/-- The host step that writes a command word: `HostWrite(0x00, w)` (30_encoding.md rule R90). -/
def cmdOp (w : Word) : HostOp := .regWrite 32 (regOffset .cmd) w

/-- The state in which the very next step is the host's write of `w` to `CMD`. -/
def State.placeCommand (s : State) (w : Word) : State :=
  { s with script := cmdOp w :: s.script, sched := .host :: s.sched }

end Sys2Proof.Machine
end

