-- ==== Sys2Proof/Machine/Step.lean ====
section
/-! DEFINITION. One step of the machine: the next agent's turn (00_scope.md rule R16). -/
namespace Sys2Proof.Machine

/-- One step: the agent whose turn it is moves, and the schedule's choice is used up (R16; log entry 3). -/
def step (s : State) : Host.Outcome State Fault Refusal := agentTurn s.nextAgent s.dropSched

/-- `s` with the command word whose low `nbits` bits are `w` standing as the host's next step, and the host's turn next:
a command arrives by a host write and there is no instruction memory (10_state.md rule R28; log entry 4). -/
def State.withFetchWord (s : State) (nbits w : Nat) : State :=
  s.placeCommand (BitVec.ofNat 32 (w % 2 ^ nbits))

end Sys2Proof.Machine
end

