-- ==== Sys2Proof/Machine/HostScript.lean ====
section
/-! DEFINITION. The host's command script: the lines of 30_encoding.md rule R90, the pseudo-instructions of rule R91, and the image conversions of 44_host_sequences.md, each as the list of host steps it expands to. -/
namespace Sys2Proof.Machine

/-- `WR reg, value` (30_encoding.md rule R90). -/
def wr (r : Reg) (v : Word) : HostOp := .regWrite 32 (regOffset r) v

/-- `RD reg` (R90). -/
def rd (r : Reg) : HostOp := .regRead 32 (regOffset r)

/-- A command line, `WR CMD, encode i` (R90). -/
def cmd (i : Instr) : HostOp := wr .cmd (encode i)

/-- `BLK(2s)`, the register of block bytes `8s` to `8s+3`. -/
def blkLow (sel : BitVec 1) : Reg := if sel = 0 then .blk0 else .blk2

/-- `BLK(2s+1)`, the register of block bytes `8s+4` to `8s+7`. -/
def blkHigh (sel : BitVec 1) : Reg := if sel = 0 then .blk1 else .blk3

/-- `LDBLK8 s, b0 .. b7` (R91). -/
def ldblk8 (sel : BitVec 1) (b : Nat → Byte) : List HostOp :=
  [wr (blkLow sel) (le32 (b 0) (b 1) (b 2) (b 3)), wr (blkHigh sel) (le32 (b 4) (b 5) (b 6) (b 7))]

/-- `LDBLK16 b0 .. b15` (R91). -/
def ldblk16 (b : Nat → Byte) : List HostOp := ldblk8 0 b ++ ldblk8 1 fun j => b (8 + j)

/-- The pixel at `a` as a host sees it that reads the four bytes as one little-endian word (20_memory.md rule R54). -/
def State.pixelLittle (s : State) (a : Word) : Word :=
  le32 (s.readByte a) (s.readByte (a + 1)) (s.readByte (a + 2)) (s.readByte (a + 3))

/-- The same pixel read as one big-endian word (R54). -/
def State.pixelBig (s : State) (a : Word) : Word :=
  le32 (s.readByte (a + 3)) (s.readByte (a + 2)) (s.readByte (a + 1)) (s.readByte a)

/-- What the value of `STATUS` read last by `WAIT` tells the host: completed, with every write visible (R160, 20_memory.md
rule R66). Only then may it use the destination as decoded data (70_reset_and_hazards.md rule R205). -/
def statusCompleted (v : Word) : Bool := v.extractLsb' 0 1 == 0 && v.extractLsb' 1 1 == 1 && v.extractLsb' 4 3 == 0

/-- What it tells the host about an error: one is latched (R160; 60_exceptions.md rule R176). -/
def statusFailed (v : Word) : Bool := v.extractLsb' 4 3 != 0

/-- `blocksX`, and `blocksY` of the height: the block count of a dimension, rounded up (44_host_sequences.md rule R161). -/
def blocks (n : Nat) : Nat := (n + 3) / 4

/-- The stride of an image: the true width times 4 (R161). -/
def imageStride (width : Nat) : Nat := width * 4

/-- The byte offset in the image of block `(bx, by)` (R162). -/
def blockOffset (width bx bY : Nat) : Nat := (bY * 4 * width + bx * 4) * 4

/-- The number of a block in raster order (R162). -/
def blockNumber (width bx bY : Nat) : Nat := bY * blocks width + bx

/-- `GetBufferSize(width, height)`, the size of the logical image (R164). -/
def getBufferSize (width height : Nat) : Nat := width * height * 4

/-- The bytes a conversion needs to be writable from `dst`; 0 when it has no block (R165). -/
def conversionExtent (width height : Nat) : Nat :=
  if blocks width = 0 ∨ blocks height = 0 then 0
  else ((4 * blocks height - 1) * width + 4 * blocks width) * 4

/-- Bytes per block of the compressed buffer (R167). -/
def sourceNeeded (blockBytes width height : Nat) : Nat := blocks width * blocks height * blockBytes

/-- The grid walk "in row-major order" (R162). -/
def gridWalk (width height : Nat) (body : Nat → Nat → List HostOp) : List HostOp :=
  (List.range (blocks height)).flatMap fun bY => (List.range (blocks width)).flatMap fun bx => body bx bY

/-- `WR DST` and `WR STRIDE` for block `(bx, by)`, addresses modulo 2^32 (R162). -/
def placeBlock (dst : Word) (width bx bY : Nat) : List HostOp :=
  [wr .dst (dst + BitVec.ofNat 32 (blockOffset width bx bY)), wr .stride (BitVec.ofNat 32 (imageStride width))]

/-- Byte `o + j` of the compressed buffer. -/
def srcByte (src : List Byte) (o j : Nat) : Byte := src.getD (o + j) 0

/-- `CONVERT_DXT1 src, dst, width, height`; `none` is the size-mismatch error of a buffer that is too short (R162, R167 (a);
log entry 13). -/
def convertDxt1 (src : List Byte) (dst : Word) (width height : Nat) : Option (List HostOp) :=
  if src.length < sourceNeeded 8 width height then none
  else some (gridWalk width height fun bx bY =>
    ldblk8 0 (srcByte src (blockNumber width bx bY * 8)) ++ placeBlock dst width bx bY ++ [cmd (.dxt1 0), .wait])

/-- The command sequences that may stand for the line `DXT5` of a conversion (R163; 42_dxt5_block.md rule R140). -/
inductive Dxt5Form where
  | onePass | onePassF | colorThenAlpha | rgbThenAlpha | alphaThenRgb
  deriving DecidableEq, Repr

/-- The host steps of such a sequence, `WAIT` between its commands (R140). -/
def dxt5Lines : Dxt5Form → List HostOp
  | .onePass => [cmd .dxt5]
  | .onePassF => [cmd .dxt5f]
  | .colorThenAlpha => [cmd (.dxt1 1), .wait, cmd (.alpha 0)]
  | .rgbThenAlpha => [cmd (.colorrgb 1), .wait, cmd (.alpha 0)]
  | .alphaThenRgb => [cmd (.alpha 0), .wait, cmd (.colorrgb 1)]

/-- `CONVERT_DXT5 src, dst, width, height` (R163, R167 (a)). -/
def convertDxt5 (form : Dxt5Form) (src : List Byte) (dst : Word) (width height : Nat) : Option (List HostOp) :=
  if src.length < sourceNeeded 16 width height then none
  else some (gridWalk width height fun bx bY =>
    ldblk16 (srcByte src (blockNumber width bx bY * 16)) ++ placeBlock dst width bx bY ++ dxt5Lines form ++ [.wait])

end Sys2Proof.Machine
end

