-- ==== Sys2Proof/Safety.lean ====
section
/-! DEFINITION. What claims are stated in terms of: the invariant of the machine, the footprint of an operation, the engine running on its own, and the duties of the host (70_reset_and_hazards.md section 3). -/
namespace Sys2Proof.Machine

/-- The states runs reach. Each line is a fact the spec states about every state: `err` takes only the values 0 to 3
(60_exceptions.md rule R176, 10_state.md rule R39); `BUSY` and `DONE` never hold together, and `ERR` beside them is 2 or,
with `DONE`, 1 or 2 (R26); `FADDR` is 0 unless `Bus` is latched (R27, 93 entry U15); while busy an entry of the write
sequence is pending (70_reset_and_hazards.md rule R213) and `F.sel` is 0 for `DXT5` (42_dxt5_block.md rule R137). -/
structure State.Inv (s : State) : Prop where
  memory : Memory.wf s.mem = true
  errCode : s.err.toNat ≤ 3
  busyNotDone : s.busy = true → s.done = false
  busyErr : s.busy = true → s.err = 0 ∨ s.err = 2
  doneErr : s.done = true → s.err ≠ 3
  faddrZero : s.err ≠ 3 → s.faddr = 0
  pending : s.busy = true → s.f.k < s.f.writeSeq.length
  selZero : s.busy = true → s.f.op = .dxt5 → s.f.sel = 0

/-- The addresses the operation writes (00_scope.md rule R15). -/
def InFlight.footprint (f : InFlight) : List Word := f.writeSeq.map Prod.fst

/-- Every address of the write sequence of `f` accepts a write (20_memory.md rule R72). -/
def State.canWriteAll (s : State) (f : InFlight) : Prop := ∀ a ∈ f.footprint, s.isWritable a = true

/-- The ten legal words and their commands (30_encoding.md rule R85). -/
def legalWords : List (Word × Instr) :=
  [(0x00000000, .nop), (0x00000001, .alpha 0), (0x00000011, .alpha 1), (0x00000002, .colorrgb 0), (0x00000012, .colorrgb 1),
    (0x00000003, .srst), (0x0000000B, .dxt1 0), (0x0000001B, .dxt1 1), (0x0000000E, .dxt5), (0x0000000F, .dxt5f)]

/-- `F.op` by the `OP` of a decode command's word (R86). -/
def launchOp (w : Word) : Op :=
  if w.extractLsb' 0 4 = 0x1 then .alpha
  else if w.extractLsb' 0 4 = 0x2 then .colorrgb
  else if w.extractLsb' 0 4 = 0xB then .dxt1
  else .dxt5

/-- The operation and the half a decode command launches; `NOP` and `SRST` launch none (R86). -/
def commandOp : Instr → Option (Op × BitVec 1)
  | .nop => none
  | .alpha sel => some (.alpha, sel)
  | .colorrgb sel => some (.colorrgb, sel)
  | .srst => none
  | .dxt1 sel => some (.dxt1, sel)
  | .dxt5 => some (.dxt5, 0)
  | .dxt5f => some (.dxt5, 0)

/-- The block is idle with no latched error: a command other than `SRST` executes (30_encoding.md rule R80). -/
def State.ready (s : State) : Prop := s.err = 0 ∧ s.busy = false

/-- `n` steps of the machine, up to a fault or a refusal. -/
def runSteps : Nat → State → Host.Outcome State Fault Refusal
  | 0, s => .next s
  | n + 1, s =>
    match step s with
    | .next t => runSteps n t
    | .fault r => .fault r
    | .refused r => .refused r

/-- `n` steps of the engine, the host standing still. -/
def engineRun : Nat → State → Host.Outcome State Fault Refusal
  | 0, s => .next s
  | n + 1, s =>
    match engineTurn s with
    | .next t => engineRun n t
    | .fault r => .fault r
    | .refused r => .refused r

/-- A command and the `WAIT` after it, the host standing still: at most 64 engine steps (R211). -/
def runCommand (i : Instr) (s : State) : Host.Outcome State Fault Refusal :=
  match exec i s with
  | .next t => engineRun 64 t
  | .fault r => .fault r
  | .refused r => .refused r

/-- Two commands, each followed by `WAIT`. -/
def runTwo (i j : Instr) (s : State) : Host.Outcome State Fault Refusal :=
  match runCommand i s with
  | .next t => runCommand j t
  | .fault r => .fault r
  | .refused r => .refused r

/-- The operation a launch of the 16 bytes now in `BLK0..BLK3` to `DST` with `STRIDE` would be. -/
def State.operation (s : State) (op : Op) (sel : BitVec 1) : InFlight :=
  { op := op, blk := s.blockBytes, sel := sel, dst := s.dst, stride := s.stride, k := 0 }

/-- The condition of 42_dxt5_block.md rule R140 on the destination: the stride is a multiple of 4, or the sixteen
4-byte pixel footprints are pairwise disjoint. -/
def pixelsAligned (f : InFlight) : Prop :=
  f.stride.toNat % 4 = 0 ∨
    ∀ i < 16, ∀ j < 16, i ≠ j → ∀ l m : Lane, f.laneAddr i l ≠ f.laneAddr j m

/-- A host step that leaves the footprint of the operation in flight alone (70_reset_and_hazards.md rule R208). -/
def sparesFootprint (f : InFlight) : HostOp → Prop
  | .memWrite a _ => a ∉ f.footprint
  | .regWrite _ _ _ => True
  | .regRead _ _ => True
  | .memRead _ => True
  | .wait => True

/-- A host step that does not write `CMD` while the block is busy, but for `SRST` (70_reset_and_hazards.md rule R206). -/
def respectsBusy (s : State) : HostOp → Prop
  | .regWrite _ off v => off = regOffset .cmd → s.busy = true → v = encode .srst
  | .regRead _ _ => True
  | .memWrite _ _ => True
  | .memRead _ => True
  | .wait => True

/-- The host writes no byte of the footprint in the step that comes next. -/
def State.hostSpares (s : State) : Prop := ∀ op ∈ s.script.head?, sparesFootprint s.f op

/-- The host's next step respects `BUSY`. -/
def State.hostRespects (s : State) : Prop := ∀ op ∈ s.script.head?, respectsBusy s op

/-- The bytes of the footprint after the first `n` entries of the write sequence of `f`, starting from memory `m`
(20_memory.md rule R72, 93 entry U7). -/
def footprintIs (m : Memory) (f : InFlight) (n : Nat) (now : Memory) : Prop :=
  ∀ a ∈ f.footprint, Memory.read now a.toNat = Memory.read (Memory.applyWrites m (f.writeSeq.take n)) a.toNat

end Sys2Proof.Machine
end

