-- ==== Sys2Proof/Certificates/Slice0/Obligations.lean ====
section
/-! DEFINITION. What is claimed about the machine: one definition per claim, each formalising rules of the spec. -/
open Sys2Proof Sys2Proof.Machine

/-! Encoding (30_encoding.md). -/

/-- A word decodes to a command exactly when it is the command's word (R81, R82, R83, R85): no bit of an encoding is
dropped and no other word decodes. -/
def Obligations.DecodeEncodeAgree : Prop :=
  ∀ (w : Word) (i : Instr), decode w = .ok i ↔ w = encode i

/-- R85: legality, the list of ten words with their commands, and the selection of a table row by match and mask agree on
every word. -/
def Obligations.LegalWordsAreTheTen : Prop :=
  ∀ w : Word,
    (legal w = true ↔ ∃ i, (w, i) ∈ legalWords) ∧
    (∀ i, decode w = .ok i ↔ (w, i) ∈ legalWords) ∧
    (legal w = true ↔ ∃ row ∈ opcodeRows, selectsRow w row = true)

/-- R84: the reserved bits are 0 in every command, and a word with any of them set is illegal whatever its `OP`. -/
def Obligations.ReservedBitsMustBeZero : Prop :=
  (∀ i : Instr, rsvField (encode i) = 0) ∧
    ∀ w : Word, rsvField w ≠ 0 → legal w = false ∧ decode w = .error .rsvNonZero

/-- R82, R87: words of every family, written out, decode to the command they stand for; illegal neighbours are refused. -/
def Obligations.FamilyWordsDecode : Prop :=
  decode 0x00000000 = .ok .nop ∧ decode 0x00000003 = .ok .srst ∧ decode 0x00000011 = .ok (.alpha 1) ∧
    decode 0x00000002 = .ok (.colorrgb 0) ∧ decode 0x0000001B = .ok (.dxt1 1) ∧ decode 0x0000000E = .ok .dxt5 ∧
    decode 0x0000000F = .ok .dxt5f ∧ decode 0x00000013 = .error .selNonZero ∧ decode 0x0000000C = .error .noOperation ∧
    decode 0x8000000B = .error .rsvNonZero

/-- R83: `half(F)[j] = F.blk[8*F.sel + j]`, and the field must be 0 for `NOP`, `SRST`, `DXT5` and `DXT5F`. -/
def Obligations.SelChoosesTheHalf : Prop :=
  (∀ (f : InFlight) (j : Nat), j < 8 → f.half[j]? = f.blk[8 * f.sel.toNat + j]?) ∧
    ∀ i : Instr, i ∈ [Instr.nop, .srst, .dxt5, .dxt5f] →
      selField (encode i) = 0 ∧ decode (encode i ||| 0x10) = .error .selNonZero

/-! Registers and the port (10_state.md). -/

/-- R22: block byte `4n+j` is byte `j` of `BLKn`, and `BLKn` is the `le32` of its four block bytes. -/
def Obligations.BlockBytesInRegisters : Prop :=
  (∀ (s : State) (j : Nat), j < 4 →
    s.blockBytes[j]? = some (s.blk0.extractLsb' (8 * j) 8) ∧ s.blockBytes[4 + j]? = some (s.blk1.extractLsb' (8 * j) 8) ∧
    s.blockBytes[8 + j]? = some (s.blk2.extractLsb' (8 * j) 8) ∧
    s.blockBytes[12 + j]? = some (s.blk3.extractLsb' (8 * j) 8)) ∧
  ∀ w : Word, w = le32 (regByte w 0) (regByte w 1) (regByte w 2) (regByte w 3)

/-- R91: after the four register writes of `LDBLK16` the block bytes are the ones given, and nothing is written to the
pixel memory. The host's steps stand in the model's own `script` (log entry 4). -/
def Obligations.LoadBlockSixteen : Prop :=
  ∀ (s : State) (b : Nat → Byte) (rest : List HostOp),
    s.script = ldblk16 b ++ rest → s.sched = [] → s.busy = false →
      ∃ t, runSteps 4 s = .next t ∧ (∀ j < 16, t.blockBytes[j]? = some (b j)) ∧ t.script = rest ∧ t.mem = s.mem ∧
        t.dst = s.dst ∧ t.stride = s.stride ∧ t.busy = false ∧ t.err = s.err

/-- R26: the fields of the word a read of `STATUS` returns, the reserved bits 0. -/
def Obligations.StatusWordFields : Prop :=
  ∀ s : State,
    s.statusWord.extractLsb' 0 1 = BitVec.ofBool s.busy ∧ s.statusWord.extractLsb' 1 1 = BitVec.ofBool s.done ∧
    s.statusWord.extractLsb' 2 2 = 0 ∧ s.statusWord.extractLsb' 4 3 = s.err ∧ s.statusWord.extractLsb' 7 25 = 0

/-- R21, R25: a 32-bit read of each register returns what it holds, `CMD` reads as 0, and the read changes nothing but
what the host has received, whose record `reads` is the model's own (log entry 5). -/
def Obligations.RegisterReadsAnswer : Prop :=
  ∀ s : State,
    hostOp (rd .cmd) s = .next { s with reads := .reg 0x00 0 :: s.reads } ∧
    hostOp (rd .status) s = .next { s with reads := .reg 0x04 s.statusWord :: s.reads } ∧
    hostOp (rd .dst) s = .next { s with reads := .reg 0x08 s.dst :: s.reads } ∧
    hostOp (rd .stride) s = .next { s with reads := .reg 0x0C s.stride :: s.reads } ∧
    hostOp (rd .blk0) s = .next { s with reads := .reg 0x10 s.blk0 :: s.reads } ∧
    hostOp (rd .blk1) s = .next { s with reads := .reg 0x14 s.blk1 :: s.reads } ∧
    hostOp (rd .blk2) s = .next { s with reads := .reg 0x18 s.blk2 :: s.reads } ∧
    hostOp (rd .blk3) s = .next { s with reads := .reg 0x1C s.blk3 :: s.reads } ∧
    hostOp (rd .faddr) s = .next { s with reads := .reg 0x20 s.faddr :: s.reads }

/-- R21, R32: in every state, busy or not, a host write replaces an operand register and changes nothing else; a write to
`STATUS` or `FADDR` is ignored. -/
def Obligations.RegisterWritesTakeEffect : Prop :=
  ∀ (s : State) (v : Word),
    hostOp (wr .dst v) s = .next { s with dst := v } ∧ hostOp (wr .stride v) s = .next { s with stride := v } ∧
    hostOp (wr .blk0 v) s = .next { s with blk0 := v } ∧ hostOp (wr .blk1 v) s = .next { s with blk1 := v } ∧
    hostOp (wr .blk2 v) s = .next { s with blk2 := v } ∧ hostOp (wr .blk3 v) s = .next { s with blk3 := v } ∧
    hostOp (wr .status v) s = .next s ∧ hostOp (wr .faddr v) s = .next s

/-- R30: a reserved offset reads as 0, a write to it is ignored, and neither changes any state of the block or raises an
error. What a read returns is seen in the model's own record `reads` (log entry 5). -/
def Obligations.ReservedOffsets : Prop :=
  ∀ (s : State) (off : Nat) (v : Word), off % 4 = 0 → (∀ r : Reg, regOffset r ≠ off) →
    hostOp (.regRead 32 off) s = .next { s with reads := .reg off 0 :: s.reads } ∧
    hostOp (.regWrite 32 off v) s = .next s

/-- R31: 32-bit accesses at multiples of 4 and nothing else. -/
def Obligations.OtherAccessesRefused : Prop :=
  ∀ (s : State) (bits off : Nat) (v : Word),
    (¬ (bits = 32 ∧ off % 4 = 0) →
      hostOp (.regRead bits off) s = .refused (.portAccess bits off) ∧
      hostOp (.regWrite bits off v) s = .refused (.portAccess bits off)) ∧
    (bits = 32 ∧ off % 4 = 0 →
      (∃ t, hostOp (.regRead bits off) s = .next t) ∧ ∃ t, hostOp (.regWrite bits off v) s = .next t)

/-- R16, R34, R65: the host's byte write and byte read of the pixel memory; the byte is there for every later read.
That the access always succeeds is the model's choice (log entry 7). -/
def Obligations.HostMemoryAccesses : Prop :=
  ∀ (s : State) (a : Word) (v : Byte),
    hostOp (.memRead a) s = .next { s with reads := .mem a (s.readByte a) :: s.reads } ∧
    ∃ t, hostOp (.memWrite a v) s = .next t ∧ t = { s with mem := t.mem } ∧ t.readByte a = v ∧
      ∀ b, b ≠ a → t.readByte b = s.readByte b

/-- R160: one poll of `WAIT` reads `STATUS`, and the host polls again exactly while the value read has `BUSY = 1`
(the form of a poll: log entries 5, 10). -/
def Obligations.WaitPolls : Prop :=
  ∀ s : State,
    (s.busy = true →
      hostOp .wait s = .next { s with reads := .reg 0x04 s.statusWord :: s.reads, script := .wait :: s.script }) ∧
    (s.busy = false → hostOp .wait s = .next { s with reads := .reg 0x04 s.statusWord :: s.reads })

/-! Commands (30_encoding.md rule R80; 40 to 43). -/

/-- R80: what a host write of `w` to `CMD` does, by the first line that applies; with R86 for the launch and R179 for an
illegal word. What `SRST` leaves in the in-flight record, which is meaningless after it, is not said. -/
def Obligations.CommandDispatch : Prop :=
  ∀ (w : Word) (s : State),
    hostOp (wr .cmd w) s = cmdWrite w s ∧
    ∃ g : InFlight, cmdWrite w s =
      if w = 0x00000003 then
        .next { s with
          busy := false, done := false, err := 0, dst := 0, stride := 0
          blk0 := 0, blk1 := 0, blk2 := 0, blk3 := 0, faddr := 0, f := g }
      else if s.err ≠ 0 then .next s
      else if s.busy then .next { s with err := 2 }
      else if legal w = false then .next { s with err := 1 }
      else if w.extractLsb' 0 4 = 0 then .next { s with done := true }
      else
        .next { s with
          f := { op := launchOp w, blk := s.blockBytes, sel := w.extractLsb' 4 1, dst := s.dst, stride := s.stride, k := 0 }
          busy := true
          done := false }

/-- R150: `NOP` on an idle block without an error sets `DONE` and changes nothing else; otherwise it is turned away. -/
def Obligations.NopSetsDone : Prop :=
  encode .nop = 0x00000000 ∧ decode 0x00000010 = .error .selNonZero ∧
  ∀ s : State,
    (s.ready → exec .nop s = .next { s with done := true }) ∧
    (s.err = 0 → s.busy = true → exec .nop s = .next { s with err := 2 }) ∧
    (s.err ≠ 0 → exec .nop s = .next s)

/-- R151: `SRST` is accepted in every state, gives the reset registers, leaves the memory alone, and the engine has no
enabled step after it. What is left in the in-flight record, meaningless by R37, is not said. -/
def Obligations.SrstResets : Prop :=
  encode .srst = 0x00000003 ∧ decode 0x00000013 = .error .selNonZero ∧
  ∀ s : State, ∃ t, exec .srst s = .next t ∧
    t = { s with
      busy := false, done := false, err := 0, dst := 0, stride := 0
      blk0 := 0, blk1 := 0, blk2 := 0, blk3 := 0, faddr := 0, f := t.f } ∧
    engineTurn t = .next t

/-- R86: each of the five decode commands on an idle block without an error copies its operands into the in-flight record,
sets `BUSY`, clears `DONE`, and writes no byte. -/
def Obligations.DecodeCommandsLaunch : Prop :=
  ∀ (s : State) (sel : BitVec 1), s.ready →
    exec (.alpha sel) s = .next { s with f := s.operation .alpha sel, busy := true, done := false } ∧
    exec (.colorrgb sel) s = .next { s with f := s.operation .colorrgb sel, busy := true, done := false } ∧
    exec (.dxt1 sel) s = .next { s with f := s.operation .dxt1 sel, busy := true, done := false } ∧
    exec .dxt5 s = .next { s with f := s.operation .dxt5 0, busy := true, done := false } ∧
    exec .dxt5f s = .next { s with f := s.operation .dxt5 0, busy := true, done := false }

/-- R139: `DXT5F` has the word `0x0000000F` and is in every state the same step as `DXT5`. -/
def Obligations.Dxt5fIsDxt5 : Prop :=
  encode .dxt5f = 0x0000000F ∧ ∀ s : State,
    exec .dxt5f s = exec .dxt5 s ∧ cmdWrite 0x0000000F s = cmdWrite 0x0000000E s ∧
    (s.ready → ∃ t, exec .dxt5f s = .next t ∧ t.f.op = .dxt5)

/-- R177, R180: every command but `SRST` is dropped under a latched error, and latches `BusyCmd` while busy with no other
effect. -/
def Obligations.CommandsTurnedAway : Prop :=
  ∀ (i : Instr) (s : State), i ≠ .srst →
    (s.err ≠ 0 → exec i s = .next s) ∧ (s.err = 0 → s.busy = true → exec i s = .next { s with err := 2 })

/-- The frame of the seven commands: every command answers a next state; the memory, the platform, the script, the schedule
and what the host has read are unchanged by all; the operand registers and `FADDR` by all but `SRST`; the in-flight record by
`NOP` and `SRST`; `BUSY` by `NOP`; `ERR` by every command but `SRST` on an idle block. That `SRST` keeps the in-flight record,
meaningless after it, is the model's choice (log entry 6). -/
def Obligations.CommandFrame : Prop :=
  ∀ (i : Instr) (s : State), ∃ t, exec i s = .next t ∧
    (∀ a : Word, t.readByte a = s.readByte a) ∧ t.mem = s.mem ∧ t.writable = s.writable ∧ t.script = s.script ∧
    t.sched = s.sched ∧ t.reads = s.reads ∧
    (i ≠ .srst → t.dst = s.dst ∧ t.stride = s.stride ∧ t.blk0 = s.blk0 ∧ t.blk1 = s.blk1 ∧ t.blk2 = s.blk2 ∧
      t.blk3 = s.blk3 ∧ t.faddr = s.faddr ∧ (s.busy = false → t.err = s.err)) ∧
    (i = .nop → t.f = s.f ∧ t.busy = s.busy) ∧ (i = .srst → t.f = s.f) ∧
    (commandOp i = none ∨ s.busy = true ∨ s.err ≠ 0 → t.f = s.f)

/-- A step runs the decoded command: when the host's turn is next and its next step writes a word to `CMD` that decodes to
`i`, the step is `exec i` of the state with that host step and the schedule's choice used up (R16, R28, R80). With a table
word placed, the step runs that command on the state it was placed in (where commands come from is the model's choice, log
entries 3, 4). -/
def Obligations.StepRunsTheCommand : Prop :=
  (∀ (s : State) (w : Word) (rest : List HostOp) (i : Instr),
    s.nextAgent = .host → s.script = wr .cmd w :: rest → decode w = .ok i →
      step s = exec i { s with script := rest, sched := s.sched.tail }) ∧
  ∀ (s : State) (w : Nat) (i : Instr), decodeTableWord 32 w = some i → step (s.withFetchWord 32 w) = exec i s

/-! Errors (60_exceptions.md). -/

/-- R178: the raise primitive. -/
def Obligations.RaiseLatchesTheFirst : Prop :=
  ∀ (s : State) (info : Word),
    (s.err = 0 → s.raise .illOp info = { s with err := 1 } ∧ s.raise .busyCmd info = { s with err := 2 } ∧
      s.raise .bus info = { s with err := 3, faddr := info }) ∧
    (s.err ≠ 0 → ∀ e : Err, s.raise e info = s)

/-- R177: once an error is latched, no step changes `ERR` or `FADDR` but a reset or the host's write of `SRST`, and every
other write to `CMD` is dropped with no effect at all. -/
def Obligations.ErrorsAreSticky : Prop :=
  ∀ s : State, s.err ≠ 0 →
    (∀ t, step s = .next t → (t.err = s.err ∧ t.faddr = s.faddr) ∨ s.nextAgent = .rst ∨
      (s.nextAgent = .host ∧ s.script.head? = some (wr .cmd 0x00000003))) ∧
    ∀ w : Word, w ≠ 0x00000003 → hostOp (wr .cmd w) s = .next s

/-- R206: a host that does not write `CMD` while `BUSY = 1`, but for `SRST`, never latches `BusyCmd`. -/
def Obligations.RespectfulHostNeverBusyCmd : Prop :=
  ∀ s t : State, s.hostRespects → s.err ≠ 2 → step s = .next t → t.err ≠ 2

/-! The engine and its write sequence (20_memory.md). -/

/-- R56: the write primitive, and writing the same byte twice equals writing it once. -/
def Obligations.WritePrimitive : Prop :=
  ∀ (s : State) (a : Word) (v : Byte),
    (s.isWritable a = true → ∃ t, s.memWrite a v = some t ∧ t = { s with mem := t.mem } ∧ t.readByte a = v ∧
      (∀ b, b ≠ a → t.readByte b = s.readByte b) ∧
      ∃ u, t.memWrite a v = some u ∧ ∀ b, u.readByte b = t.readByte b) ∧
    (s.isWritable a = false → s.memWrite a v = none)

/-- R58: the write sequence lists pixels 0 to 15 in order, in each the operation's lanes in order, and its length is 64,
64, 48 or 16. -/
def Obligations.WriteSequenceShape : Prop :=
  Op.lanes .dxt1 = [.r, .g, .b, .a] ∧ Op.lanes .dxt5 = [.r, .g, .b, .a] ∧ Op.lanes .colorrgb = [.r, .g, .b] ∧
  Op.lanes .alpha = [.a] ∧
  ∀ f : InFlight,
    f.writeSeq.length = (match f.op with | .alpha => 16 | .colorrgb => 48 | .dxt1 => 64 | .dxt5 => 64) ∧
    ∀ (i j : Nat) (l : Lane), i < 16 → f.op.lanes[j]? = some l →
      f.writeSeq[f.op.lanes.length * i + j]? = some (f.laneAddr i l, f.value i l)

/-- R57: effective addresses, all modulo 2^32, and no step of the engine changes `DST` or `STRIDE`. -/
def Obligations.EffectiveAddresses : Prop :=
  (∀ (f : InFlight) (i : Nat) (l : Lane), i < 16 →
    (f.base i).toNat = (f.dst.toNat + i / 4 * f.stride.toNat + i % 4 * 4) % 2 ^ 32 ∧
    (f.laneAddr i l).toNat = (f.dst.toNat + i / 4 * f.stride.toNat + i % 4 * 4 + l.index) % 2 ^ 32) ∧
  (∀ s t : State, engineTurn s = .next t → t.dst = s.dst ∧ t.stride = s.stride) ∧
  ∀ (i : Instr) (s t : State), i ≠ .srst → exec i s = .next t → t.dst = s.dst ∧ t.stride = s.stride

/-- R59, R62: the engine's step performs the entry `F.k`, or is the bus error of R181 where the memory refuses it; the step of the last entry completes the operation; without an
operation in flight the engine has no step. -/
def Obligations.EngineStepWrites : Prop :=
  (∀ (s : State) (a : Word) (v : Byte), s.busy = true → s.f.writeSeq[s.f.k]? = some (a, v) → s.isWritable a = true →
    engineTurn s =
      if s.f.k + 1 = s.f.writeSeq.length then
        .next { s with mem := Memory.write s.mem a.toNat v, f := { s.f with k := s.f.k + 1 }, busy := false, done := true }
      else .next { s with mem := Memory.write s.mem a.toNat v, f := { s.f with k := s.f.k + 1 } }) ∧
  (∀ (s : State) (a : Word) (v : Byte), s.busy = true → s.f.writeSeq[s.f.k]? = some (a, v) → s.isWritable a = false →
    engineTurn s = .next (s.busError a)) ∧
  ∀ s : State, s.busy = false → engineTurn s = .next s

/-- R181: a refused write latches `Bus` and its address if no error was latched, clears `BUSY`, changes nothing else, and
the engine has no enabled step after it. -/
def Obligations.RefusedWriteAborts : Prop :=
  ∀ (s : State) (a : Word) (v : Byte), s.busy = true → s.f.writeSeq[s.f.k]? = some (a, v) → s.isWritable a = false →
    ∃ t, engineTurn s = .next t ∧
      t = { s with
        busy := false
        err := if s.err = 0 then 3 else s.err
        faddr := if s.err = 0 then a else s.faddr } ∧
      engineTurn t = .next t

/-- The frame of a whole step on the memory (R34, R51, R52, R56, R202): a byte changes only as the entry `F.k` of the
operation in flight, at a writable address, or by the host's own write of it. No step changes which addresses accept a
write (R7, R35). -/
def Obligations.MemoryChangesOnlyByWrites : Prop :=
  ∀ s t : State, step s = .next t → t.writable = s.writable ∧
    ∀ a : Word, t.readByte a ≠ s.readByte a →
      (s.nextAgent = .engine ∧ s.busy = true ∧ s.isWritable a = true ∧
        s.f.writeSeq[s.f.k]? = some (a, t.readByte a)) ∨
      (s.nextAgent = .host ∧ s.script.head? = some (.memWrite a (t.readByte a)))

/-- R36, R37: no host step changes the in-flight record of an operation in flight, and what the host reads at an offset
does not depend on the record. -/
def Obligations.HostCannotReachInFlight : Prop :=
  (∀ s t : State, s.busy = true → hostTurn s = .next t → t.f = s.f) ∧
  ∀ (s : State) (g : InFlight) (off : Nat), { s with f := g }.portValue off = s.portValue off

/-- R17, R36: the engine's step does not depend on the operand registers, on what the host still
has to do or has read, and does not change them. -/
def Obligations.EngineIgnoresOperandRegisters : Prop :=
  ∀ (s t : State) (d st b0 b1 b2 b3 : Word) (script : List HostOp) (reads : List Reading), engineTurn s = .next t →
    engineTurn { s with
        dst := d, stride := st, blk0 := b0, blk1 := b1, blk2 := b2, blk3 := b3, script := script, reads := reads } =
      .next { t with
        dst := d, stride := st, blk0 := b0, blk1 := b1, blk2 := b2, blk3 := b3, script := script, reads := reads }

/-! The value functions (40_color_block.md, 41_alpha_block.md, 42_dxt5_block.md). -/

/-- R101: the fields of a PackedColor565 and their expansion by a plain left shift. -/
def Obligations.ExpansionIsLeftShift : Prop :=
  ∀ p : BitVec 16,
    (r5 p).toNat = p.toNat / 2048 ∧ (g6 p).toNat = p.toNat / 32 % 64 ∧ (b5 p).toNat = p.toNat % 32 ∧
    (expand565 p).r.toNat = 8 * (r5 p).toNat ∧ (expand565 p).g.toNat = 4 * (g6 p).toNat ∧
    (expand565 p).b.toNat = 8 * (b5 p).toNat

/-- R102, R103: the colour palette, each entry as the exact truncated quotient of the expanded channel values. -/
def Obligations.ColourPalette : Prop :=
  ∀ (c : Block8) (u v : Rgba), u = expand565 (color0 c) → v = expand565 (color1 c) →
    pal4 c 0 = { u with a := 255 } ∧ pal4 c 1 = { v with a := 255 } ∧
    ((color0 c).toNat > (color1 c).toNat →
      ((pal4 c 2).r.toNat = (2 * u.r.toNat + v.r.toNat) / 3 ∧ (pal4 c 2).g.toNat = (2 * u.g.toNat + v.g.toNat) / 3 ∧
        (pal4 c 2).b.toNat = (2 * u.b.toNat + v.b.toNat) / 3 ∧ (pal4 c 2).a = 255) ∧
      ((pal4 c 3).r.toNat = (u.r.toNat + 2 * v.r.toNat) / 3 ∧ (pal4 c 3).g.toNat = (u.g.toNat + 2 * v.g.toNat) / 3 ∧
        (pal4 c 3).b.toNat = (u.b.toNat + 2 * v.b.toNat) / 3 ∧ (pal4 c 3).a = 255)) ∧
    ((color0 c).toNat ≤ (color1 c).toNat →
      ((pal4 c 2).r.toNat = (u.r.toNat + v.r.toNat) / 2 ∧ (pal4 c 2).g.toNat = (u.g.toNat + v.g.toNat) / 2 ∧
        (pal4 c 2).b.toNat = (u.b.toNat + v.b.toNat) / 2 ∧ (pal4 c 2).a = 255) ∧
      pal4 c 3 = { r := 0, g := 0, b := 0, a := 0 })

/-- R105: pixel `i` takes bits `2i+1 : 2i` of the index field, so row `y` uses byte `c[4+y]`, the leftmost pixel its two
least significant bits. -/
def Obligations.ColourIndexBits : Prop :=
  ∀ (blk : Block8) (i : Nat), i < 16 →
    (ci blk i).toNat = (cidx blk).toNat / 4 ^ i % 4 ∧
    ∀ b : Byte, blk[4 + i / 4]? = some b → (ci blk i).toNat = b.toNat / 4 ^ (i % 4) % 4

/-- R110: the laws (a) to (f) of the colour palette. -/
def Obligations.ColourLaws : Prop :=
  (∀ c d : Block8, color0 c = color0 d → color1 c = color1 d → ∀ j, pal4 c j = pal4 d j) ∧
  (∀ c : Block8, (color0 c).toNat ≤ (color1 c).toNat → pal4 c 3 = { r := 0, g := 0, b := 0, a := 0 }) ∧
  (∀ (c : Block8) (j : BitVec 2), (pal4 c j).a ≠ 255 ↔ (j = 3 ∧ (color0 c).toNat ≤ (color1 c).toNat)) ∧
  (∀ c d : Block8, color0 c = color1 d → color1 c = color0 d →
    pal4 c 0 = pal4 d 1 ∧ pal4 c 1 = pal4 d 0 ∧ (color0 c ≠ color1 c → fourColor c = !fourColor d)) ∧
  (∀ c : Block8, color0 c = 0x0020 → color1 c = 0x001F → fourColor c = true) ∧
  ∀ c d : Block8, cidx c = cidx d → ∀ i, ci c i = ci d i

/-- R121, R122: the alpha palette, each interpolated entry the exact truncated quotient. -/
def Obligations.AlphaPalette : Prop :=
  ∀ (a : Block8) (p q : Nat), p = (alpha0 a).toNat → q = (alpha1 a).toNat →
    pal8 a 0 = alpha0 a ∧ pal8 a 1 = alpha1 a ∧
    (p > q → ∀ i : BitVec 3, 2 ≤ i.toNat → (pal8 a i).toNat = ((8 - i.toNat) * p + (i.toNat - 1) * q) / 7) ∧
    (p ≤ q →
      (∀ i : BitVec 3, 2 ≤ i.toNat → i.toNat ≤ 5 → (pal8 a i).toNat = ((6 - i.toNat) * p + (i.toNat - 1) * q) / 5) ∧
      pal8 a 6 = 0 ∧ pal8 a 7 = 255)

/-- R120, R124: the index field is the `le48` of bytes 2 to 7, and pixel `i` takes its bits `3i+2 : 3i`. -/
def Obligations.AlphaIndexBits : Prop :=
  ∀ (a : Block8) (i : Nat), i < 16 →
    (∀ b2 b3 b4 b5 b6 b7 : Byte, a[2]? = some b2 → a[3]? = some b3 → a[4]? = some b4 → a[5]? = some b5 →
      a[6]? = some b6 → a[7]? = some b7 →
      (aidx a).toNat = b2.toNat + 2 ^ 8 * b3.toNat + 2 ^ 16 * b4.toNat + 2 ^ 24 * b5.toNat + 2 ^ 32 * b6.toNat +
        2 ^ 40 * b7.toNat) ∧
    (ai a i).toNat = (aidx a).toNat / 8 ^ i % 8

/-- R128: the laws (a) to (e) of the alpha palette. -/
def Obligations.AlphaLaws : Prop :=
  (∀ a : Block8, (alpha0 a).toNat > (alpha1 a).toNat →
    (∀ i j : BitVec 3, 2 ≤ i.toNat → i.toNat ≤ j.toNat → (pal8 a j).toNat ≤ (pal8 a i).toNat) ∧
    (alpha1 a).toNat ≤ (pal8 a 7).toNat) ∧
  (∀ a : Block8, (alpha0 a).toNat ≤ (alpha1 a).toNat →
    (∀ i j : BitVec 3, 2 ≤ i.toNat → i.toNat ≤ j.toNat → j.toNat ≤ 5 → (pal8 a i).toNat ≤ (pal8 a j).toNat) ∧
    pal8 a 6 = 0 ∧ pal8 a 7 = 255) ∧
  (∀ a : Block8, alpha0 a = alpha1 a → ∀ i : BitVec 3, i.toNat ≤ 5 → pal8 a i = alpha0 a) ∧
  (∀ a b : Block8, alpha0 a = alpha0 b → alpha1 a = alpha1 b → ∀ i, pal8 a i = pal8 b i) ∧
  ∀ a : Block8, (alpha0 a).toNat = (alpha1 a).toNat + 1 → ∀ i : BitVec 3, 2 ≤ i.toNat → pal8 a i = alpha1 a

/-- R109, R127: no palette byte is above the larger endpoint's maximum, 248 for red and blue and 252 for green, and every
interpolated alpha entry lies between the two endpoints, both included. -/
def Obligations.PaletteRanges : Prop :=
  (∀ (c : Block8) (j : BitVec 2),
    (pal4 c j).r.toNat ≤ 248 ∧ (pal4 c j).g.toNat ≤ 252 ∧ (pal4 c j).b.toNat ≤ 248) ∧
  ∀ (a : Block8) (i : BitVec 3), 2 ≤ i.toNat → ((alpha0 a).toNat > (alpha1 a).toNat ∨ i.toNat ≤ 5) →
    min (alpha0 a).toNat (alpha1 a).toNat ≤ (pal8 a i).toNat ∧
    (pal8 a i).toNat ≤ max (alpha0 a).toNat (alpha1 a).toNat

/-- R106, R125, R137: the value a lane of a pixel receives, by operation. -/
def Obligations.LaneValues : Prop :=
  ∀ (f : InFlight) (i : Nat),
    (f.op = .dxt1 ∨ f.op = .colorrgb →
      f.value i .r = (pal4 f.half (ci f.half i)).r ∧ f.value i .g = (pal4 f.half (ci f.half i)).g ∧
      f.value i .b = (pal4 f.half (ci f.half i)).b ∧ f.value i .a = (pal4 f.half (ci f.half i)).a) ∧
    (f.op = .colorrgb → f.op.lanes = [.r, .g, .b]) ∧
    (f.op = .alpha → f.value i .a = pal8 f.half (ai f.half i) ∧ f.op.lanes = [.a]) ∧
    (f.op = .dxt5 →
      f.value i .r = (pal4 (highHalf f.blk) (ci (highHalf f.blk) i)).r ∧
      f.value i .g = (pal4 (highHalf f.blk) (ci (highHalf f.blk) i)).g ∧
      f.value i .b = (pal4 (highHalf f.blk) (ci (highHalf f.blk) i)).b ∧
      f.value i .a = pal8 (lowHalf f.blk) (ai (lowHalf f.blk) i))

/-! Whole operations. -/

/-- R59, R62, R72: with every address writable and the engine alone, an operation just launched performs its whole write
sequence in as many steps of the machine as it has entries, and completes; outside the footprint no byte changes.
The engine is alone because the model's own schedule is empty (log entry 3). -/
def Obligations.LaunchedOperationCompletes : Prop :=
  ∀ s : State, s.sched = [] → s.busy = true → s.f.k = 0 → s.canWriteAll s.f →
    ∃ t, runSteps s.f.writeSeq.length s = .next t ∧
      t = { s with
        mem := Memory.applyWrites s.mem s.f.writeSeq
        f := { s.f with k := s.f.writeSeq.length }
        busy := false
        done := true } ∧
      ∀ a, a ∉ s.f.footprint → t.readByte a = s.readByte a

/-- R107, R108, R126, R138, R139, R86: each decode command on an idle block without an error, its footprint writable,
ends with `DONE = 1`, `BUSY = 0`, its whole write sequence performed, and everything else as it was (the
host stands still, log entry 15). -/
def Obligations.DecodeCommandsComplete : Prop :=
  ∀ (i : Instr) (op : Op) (sel : BitVec 1) (s : State), commandOp i = some (op, sel) → s.ready →
    s.canWriteAll (s.operation op sel) →
      runCommand i s = .next { s with
        mem := Memory.applyWrites s.mem (s.operation op sel).writeSeq
        f := { s.operation op sel with k := (s.operation op sel).writeSeq.length }
        busy := false
        done := true }

/-- R60: whatever the stride, the last entry of the write sequence for an address determines its final byte. -/
def Obligations.LaterEntryWins : Prop :=
  ∀ (f : InFlight) (m : Memory) (n : Nat) (a : Word) (v : Byte), f.writeSeq[n]? = some (a, v) →
    (∀ w ∈ f.writeSeq.drop (n + 1), w.1 ≠ a) → Memory.read (Memory.applyWrites m f.writeSeq) a.toNat = v

/-- R181, R186: an operation whose entry `j` is the first to be refused leaves exactly the entries before it in the memory
(with the model's own schedule empty, log entry 3). -/
def Obligations.RefusedOperationKeepsPrefix : Prop :=
  ∀ (s : State) (j : Nat) (a : Word) (v : Byte), s.sched = [] → s.busy = true → s.f.k = 0 →
    (∀ w ∈ s.f.writeSeq.take j, s.isWritable w.1 = true) → s.f.writeSeq[j]? = some (a, v) → s.isWritable a = false →
      runSteps (j + 1) s = .next { s with
        mem := Memory.applyWrites s.mem (s.f.writeSeq.take j)
        f := { s.f with k := j }
        busy := false
        err := if s.err = 0 then 3 else s.err
        faddr := if s.err = 0 then a else s.faddr }

/-- R211, R213: from every state the invariant allows, an operation in flight has ended after at most 64 steps of the
engine: completed with its error code unchanged, or stopped by a refused write with an error latched. -/
def Obligations.OperationEndsWithin64 : Prop :=
  ∀ s : State, s.Inv → s.busy = true →
    ∃ n t, n ≤ 64 ∧ engineRun n s = .next t ∧ t.busy = false ∧
      ((t.done = true ∧ t.err = s.err) ∨ (t.done = false ∧ t.err ≠ 0))

/-- R65, R66, R71, R72: under every schedule, with a host that does not write into the footprint, the footprint of the
operation in flight holds at every step the first `F.k` entries of its write sequence over the memory at launch, and all of
them when `DONE` is set. -/
def Obligations.InterleavedOperation : Prop :=
  ∀ (m : Memory) (s t : State), s.Inv → s.busy = true → footprintIs m s.f s.f.k s.mem → s.hostSpares → step s = .next t →
    (t.busy = true → t.f = { s.f with k := t.f.k } ∧ footprintIs m t.f t.f.k t.mem) ∧
    (t.done = true → footprintIs m s.f s.f.writeSeq.length t.mem)

/-- R140: one-pass `DXT5`, colour first then alpha, RGB first then alpha, and alpha first then RGB leave the same bytes.
The host stands still until each operation has ended (`runCommand`, `runTwo`; log entry 15). -/
def Obligations.Dxt5OrdersAgree : Prop :=
  ∀ s : State, s.ready → s.canWriteAll (s.operation .dxt5 0) → pixelsAligned (s.operation .dxt5 0) →
    ∃ t1 t2 t3 t4,
      runCommand .dxt5 s = .next t1 ∧ runTwo (.dxt1 1) (.alpha 0) s = .next t2 ∧
      runTwo (.colorrgb 1) (.alpha 0) s = .next t3 ∧ runTwo (.alpha 0) (.colorrgb 1) s = .next t4 ∧
      ∀ a, t2.readByte a = t1.readByte a ∧ t3.readByte a = t1.readByte a ∧ t4.readByte a = t1.readByte a

/-- R141: alpha first and the four-lane colour second leave what the four-lane colour alone leaves, for every stride: the
alpha block's values are lost. The host stands still until each operation has ended (log entry 15). -/
def Obligations.FourLaneColourOverwritesAlpha : Prop :=
  ∀ s : State, s.ready → s.canWriteAll (s.operation .dxt1 1) →
    ∃ t u, runTwo (.alpha 0) (.dxt1 1) s = .next t ∧ runCommand (.dxt1 1) s = .next u ∧
      ∀ a, t.readByte a = u.readByte a

/-- R186, R72: what an operation leaves on its footprint does not depend on what the memory held before.
The host stands still until it has ended (log entry 15). -/
def Obligations.ResultIgnoresOldContents : Prop :=
  ∀ (i : Instr) (op : Op) (sel : BitVec 1) (s : State) (m : Memory), commandOp i = some (op, sel) → s.ready →
    s.canWriteAll (s.operation op sel) →
      ∃ t u, runCommand i s = .next t ∧ runCommand i { s with mem := m } = .next u ∧
        ∀ a ∈ (s.operation op sel).footprint, t.readByte a = u.readByte a

/-! Reset and the invariant (10_state.md, 70_reset_and_hazards.md). -/

/-- R38, R200: the registers after hardware reset and after `SRST`, the memory unchanged and an operation that was in flight
abandoned; and the registers of the state right after power-on, on every platform. -/
def Obligations.ResetValues : Prop :=
  (∀ s t : State, t = hardReset s ∨ exec .srst s = .next t →
    t.busy = false ∧ t.done = false ∧ t.err = 0 ∧ t.statusWord = 0 ∧ t.dst = 0 ∧ t.stride = 0 ∧ t.blk0 = 0 ∧ t.blk1 = 0 ∧
    t.blk2 = 0 ∧ t.blk3 = 0 ∧ t.faddr = 0 ∧ t.mem = s.mem ∧ engineTurn t = .next t) ∧
  ∀ (w : List Region) (s : State), s = State.powerOn w ∨ s = State.reset →
    s.busy = false ∧ s.done = false ∧ s.err = 0 ∧ s.statusWord = 0 ∧ s.dst = 0 ∧ s.stride = 0 ∧ s.blk0 = 0 ∧ s.blk1 = 0 ∧
    s.blk2 = 0 ∧ s.blk3 = 0 ∧ s.faddr = 0

/-- R200, R201: in a step in which `rst` is asserted the registers take their reset values, an operation in flight is
abandoned with its writes in place, and neither the host nor the engine moves. That the event is an
entry of the schedule is the model's choice (log entry 11). -/
def Obligations.ResetStep : Prop :=
  ∀ (s : State) (rest : List Agent), s.sched = .rst :: rest →
    ∃ g : InFlight, step s = .next { s with
      busy := false, done := false, err := 0, dst := 0, stride := 0
      blk0 := 0, blk1 := 0, blk2 := 0, blk3 := 0, faddr := 0, f := g, sched := rest }

/-- The invariant holds right after reset, on the platform `State.reset` names (log entry 2) and on every other. -/
def Obligations.ResetMeetsInv : Prop :=
  State.reset.Inv ∧ ∀ w : List Region, (State.powerOn w).Inv

/-- Every step keeps the invariant, under every schedule and every host (R26, R27, R176, R213). -/
def Obligations.StepKeepsInv : Prop :=
  ∀ s t : State, s.Inv → step s = .next t → t.Inv

/-- From every state the invariant allows, the next step is a next state, but for a register access outside the interface,
which is refused (R31, R211; log entries 8, 9). -/
def Obligations.InvNeverStops : Prop :=
  ∀ s : State, s.Inv →
    (∃ t, step s = .next t) ∨
    ∃ bits off, step s = .refused (.portAccess bits off) ∧ s.nextAgent = .host ∧ portAccessOk bits off = false

/-! Host sequences (44_host_sequences.md). -/

/-- R161, R164: the block grid is the dimensions divided by 4 rounded up, the stride is a multiple of 4, and the size of
the image is `width * height * 4`. -/
def Obligations.GridAndStride : Prop :=
  ∀ width height : Nat,
    width ≤ 4 * blocks width ∧ 4 * blocks width < width + 4 ∧ imageStride width = width * 4 ∧ imageStride width % 4 = 0 ∧
    getBufferSize width height = width * height * 4

/-- R162: the expansion of `CONVERT_DXT1`, block by block in row-major order, six host steps each; a compressed buffer that
is too short gives the size-mismatch error of R167 (a), which the model writes as `none` (log entry 13). -/
def Obligations.ConvertDxt1Walk : Prop :=
  ∀ (src : List Byte) (dst : Word) (width height : Nat),
    (src.length < blocks width * blocks height * 8 → convertDxt1 src dst width height = none) ∧
    (blocks width * blocks height * 8 ≤ src.length → ∃ lines, convertDxt1 src dst width height = some lines ∧
      lines.length = blocks width * blocks height * 6 ∧
      ∀ bx < blocks width, ∀ bY < blocks height, ∀ b : Nat → Byte,
        (∀ j < 8, src[(bY * blocks width + bx) * 8 + j]? = some (b j)) →
        (lines.drop (6 * (bY * blocks width + bx))).take 6 =
          [wr .blk0 (le32 (b 0) (b 1) (b 2) (b 3)), wr .blk1 (le32 (b 4) (b 5) (b 6) (b 7)),
            wr .dst (dst + BitVec.ofNat 32 ((bY * 4 * width + bx * 4) * 4)), wr .stride (BitVec.ofNat 32 (width * 4)),
            cmd (.dxt1 0), .wait])

/-- R163: the expansion of `CONVERT_DXT5`, with each of the sequences that may stand for its `DXT5` line (a buffer
that is too short: log entry 13). -/
def Obligations.ConvertDxt5Walk : Prop :=
  ∀ (form : Dxt5Form) (src : List Byte) (dst : Word) (width height : Nat),
    (src.length < blocks width * blocks height * 16 → convertDxt5 form src dst width height = none) ∧
    (blocks width * blocks height * 16 ≤ src.length → ∃ lines, convertDxt5 form src dst width height = some lines ∧
      lines.length = blocks width * blocks height * ((dxt5Lines form).length + 7) ∧
      ∀ bx < blocks width, ∀ bY < blocks height, ∀ b : Nat → Byte,
        (∀ j < 16, src[(bY * blocks width + bx) * 16 + j]? = some (b j)) →
        (lines.drop (((dxt5Lines form).length + 7) * (bY * blocks width + bx))).take ((dxt5Lines form).length + 7) =
          [wr .blk0 (le32 (b 0) (b 1) (b 2) (b 3)), wr .blk1 (le32 (b 4) (b 5) (b 6) (b 7)),
            wr .blk2 (le32 (b 8) (b 9) (b 10) (b 11)), wr .blk3 (le32 (b 12) (b 13) (b 14) (b 15)),
            wr .dst (dst + BitVec.ofNat 32 ((bY * 4 * width + bx * 4) * 4)),
            wr .stride (BitVec.ofNat 32 (width * 4))] ++ dxt5Lines form ++ [.wait])

/-- R165: the bytes a conversion writes, relative to `dst`: none beyond the extent, the last byte of the extent by lane 3
of pixel (3,3) of the last block, and the extent against the size of the logical image. -/
def Obligations.ConversionExtent : Prop :=
  ∀ width height : Nat, 1 ≤ blocks width → 1 ≤ blocks height →
    (∀ bx < blocks width, ∀ bY < blocks height, ∀ i < 16, ∀ l : Lane,
      blockOffset width bx bY + i / 4 * imageStride width + i % 4 * 4 + l.index < conversionExtent width height) ∧
    blockOffset width (blocks width - 1) (blocks height - 1) + 3 * imageStride width + 3 * 4 + 3 + 1 =
      conversionExtent width height ∧
    conversionExtent width height = ((4 * blocks height - 1) * width + 4 * blocks width) * 4 ∧
    (width % 4 = 0 → height % 4 = 0 → conversionExtent width height = getBufferSize width height) ∧
    (width % 4 ≠ 0 ∨ height % 4 ≠ 0 → getBufferSize width height < conversionExtent width height)
end

