-- ==== Sys2Proof/Laws/Memory.lean ====
section
/-! SUPPORT. The byte memory: a read after a write, the canonical form kept by every operation, equal reads of equal memories. -/
namespace Sys2Proof.Machine

theorem Memory.lookup_write_same (m : Memory) (a : Nat) (v : Byte) : Memory.lookup (Memory.write m a v) a = some v := by
  induction m with
  | nil => simp [Memory.write, Memory.lookup]
  | cons c m ih =>
    obtain ⟨b, w⟩ := c
    simp only [Memory.write]
    split
    · simp [Memory.lookup]
    · split
      · simp [Memory.lookup]
      · next h => simp [Memory.lookup, h, ih]

theorem Memory.lookup_write_other (m : Memory) {a b : Nat} (v : Byte) (h : b ≠ a) :
    Memory.lookup (Memory.write m a v) b = Memory.lookup m b := by
  induction m with
  | nil => simp [Memory.write, Memory.lookup, h]
  | cons c m ih =>
    obtain ⟨d, w⟩ := c
    simp only [Memory.write]
    split
    · simp [Memory.lookup, h]
    · split
      · next hd => subst hd; simp [Memory.lookup, h]
      · simp only [Memory.lookup, ih]

theorem Memory.lookup_write (m : Memory) (a b : Nat) (v : Byte) :
    Memory.lookup (Memory.write m a v) b = if b = a then some v else Memory.lookup m b := by
  split
  · next h => subst h; exact Memory.lookup_write_same m b v
  · next h => exact Memory.lookup_write_other m v h

/-- A read after a write: the byte written at its address, what was there before elsewhere. -/
theorem Memory.read_write (m : Memory) (a b : Nat) (v : Byte) :
    Memory.read (Memory.write m a v) b = if b = a then v else Memory.read m b := by
  unfold Memory.read
  rw [Memory.lookup_write]
  split <;> rfl

theorem Memory.above_write (m : Memory) {b a : Nat} (v : Byte) (hb : b < a) (ha : a < 2 ^ 32)
    (h : Memory.above b m = true) : Memory.above b (Memory.write m a v) = true := by
  induction m generalizing b with
  | nil => simp only [Memory.write, Memory.above, hb, ha, decide_true, Bool.and_self]
  | cons c m ih =>
    obtain ⟨d, w⟩ := c
    simp only [Memory.above, Bool.and_eq_true, decide_eq_true_eq] at h
    obtain ⟨⟨hd, hd32⟩, hm⟩ := h
    simp only [Memory.write]
    split
    · next hlt => simp only [Memory.above, hb, ha, hlt, hd32, hm, decide_true, Bool.and_self]
    · split
      · next hlt heq => subst heq; simp only [Memory.above, hb, ha, hm, decide_true, Bool.and_self]
      · have hda : d < a := by omega
        simp only [Memory.above, hd, hd32, ih hda hm, decide_true, Bool.and_self]

/-- A write keeps the canonical form. -/
theorem Memory.wf_write (m : Memory) {a : Nat} (v : Byte) (ha : a < 2 ^ 32) (h : Memory.wf m = true) :
    Memory.wf (Memory.write m a v) = true := by
  cases m with
  | nil => simp only [Memory.write, Memory.wf, Memory.above, ha, decide_true, Bool.and_self]
  | cons c m =>
    obtain ⟨d, w⟩ := c
    simp only [Memory.wf, Bool.and_eq_true, decide_eq_true_eq] at h
    obtain ⟨hd32, hm⟩ := h
    simp only [Memory.write]
    split
    · next hlt => simp only [Memory.wf, Memory.above, ha, hlt, hd32, hm, decide_true, Bool.and_self]
    · split
      · next hlt heq => subst heq; simp only [Memory.wf, ha, hm, decide_true, Bool.and_self]
      · have hda : d < a := by omega
        simp only [Memory.wf, hd32, Memory.above_write m v hda ha hm, decide_true, Bool.and_self]

/-- A write sequence keeps the canonical form. -/
theorem Memory.wf_applyWrites (m : Memory) (ws : List (Word × Byte)) (h : Memory.wf m = true) :
    Memory.wf (Memory.applyWrites m ws) = true := by
  induction ws generalizing m with
  | nil => exact h
  | cons w ws ih => exact ih _ (Memory.wf_write m w.2 w.1.isLt h)

theorem Memory.lookup_of_above {b a : Nat} (m : Memory) (h : Memory.above b m = true) (ha : a ≤ b) :
    Memory.lookup m a = none := by
  induction m generalizing b with
  | nil => rfl
  | cons c m ih =>
    obtain ⟨d, w⟩ := c
    simp only [Memory.above, Bool.and_eq_true, decide_eq_true_eq] at h
    have hne : a ≠ d := by omega
    simp only [Memory.lookup, hne, if_false]
    exact ih h.2 (by omega)

/-- Two canonical memories with the same bytes have the same head, and their tails the same bytes. -/
theorem Memory.cons_inj_of_lookup {d d' : Nat} {w w' : Byte} {m n : Memory} (hm : Memory.above d m = true)
    (hn : Memory.above d' n = true)
    (h : ∀ a, Memory.lookup ((d, w) :: m) a = Memory.lookup ((d', w') :: n) a) :
    d = d' ∧ w = w' ∧ ∀ a, Memory.lookup m a = Memory.lookup n a := by
  have hle : ¬ d < d' := fun hlt => by
    have := h d
    simp [Memory.lookup, Nat.ne_of_lt hlt, Memory.lookup_of_above n hn (Nat.le_of_lt hlt)] at this
  have hge : ¬ d' < d := fun hlt => by
    have := h d'
    simp [Memory.lookup, Nat.ne_of_lt hlt, Memory.lookup_of_above m hm (Nat.le_of_lt hlt)] at this
  obtain rfl : d = d' := by omega
  refine ⟨rfl, by simpa [Memory.lookup] using h d, fun a => ?_⟩
  by_cases ha : a ≤ d
  · rw [Memory.lookup_of_above m hm ha, Memory.lookup_of_above n hn ha]
  · simpa [Memory.lookup, show a ≠ d by omega] using h a

theorem Memory.eq_of_above {b : Nat} (m n : Memory) (hm : Memory.above b m = true) (hn : Memory.above b n = true)
    (h : ∀ a, Memory.lookup m a = Memory.lookup n a) : m = n := by
  induction m generalizing b n with
  | nil =>
    cases n with
    | nil => rfl
    | cons c n => simpa [Memory.lookup] using h c.1
  | cons c m ih =>
    simp only [Memory.above, Bool.and_eq_true] at hm
    cases n with
    | nil => simpa [Memory.lookup] using h c.1
    | cons e n =>
      simp only [Memory.above, Bool.and_eq_true] at hn
      obtain ⟨hd, hw, ht⟩ := Memory.cons_inj_of_lookup hm.2 hn.2 h
      exact congrArg₂ List.cons (Prod.ext hd hw) (ih n hm.2 (hd ▸ hn.2) ht)

/-- Two memories in canonical form that list the same bytes are the same data. -/
theorem Memory.eq_of_lookup (m n : Memory) (hm : Memory.wf m = true) (hn : Memory.wf n = true)
    (h : ∀ a, Memory.lookup m a = Memory.lookup n a) : m = n := by
  cases m with
  | nil =>
    cases n with
    | nil => rfl
    | cons c n => simpa [Memory.lookup] using h c.1
  | cons c m =>
    simp only [Memory.wf, Bool.and_eq_true] at hm
    cases n with
    | nil => simpa [Memory.lookup] using h c.1
    | cons e n =>
      simp only [Memory.wf, Bool.and_eq_true] at hn
      obtain ⟨hd, hw, ht⟩ := Memory.cons_inj_of_lookup hm.2 hn.2 h
      exact congrArg₂ List.cons (Prod.ext hd hw) (Memory.eq_of_above m n hm.2 (hd ▸ hn.2) ht)

end Sys2Proof.Machine
end

