-- ==== Sys2Proof/Laws/State.lean ====
section
/-! SUPPORT. What each update of the state does to each field: one lemma per field per update. -/
namespace Sys2Proof.Machine

/-! dropSched uses up the schedule's choice. -/

@[simp] theorem State.dropSched_busy (s : State) : (s.dropSched).busy = s.busy := rfl
@[simp] theorem State.dropSched_done (s : State) : (s.dropSched).done = s.done := rfl
@[simp] theorem State.dropSched_err (s : State) : (s.dropSched).err = s.err := rfl
@[simp] theorem State.dropSched_dst (s : State) : (s.dropSched).dst = s.dst := rfl
@[simp] theorem State.dropSched_stride (s : State) : (s.dropSched).stride = s.stride := rfl
@[simp] theorem State.dropSched_blk0 (s : State) : (s.dropSched).blk0 = s.blk0 := rfl
@[simp] theorem State.dropSched_blk1 (s : State) : (s.dropSched).blk1 = s.blk1 := rfl
@[simp] theorem State.dropSched_blk2 (s : State) : (s.dropSched).blk2 = s.blk2 := rfl
@[simp] theorem State.dropSched_blk3 (s : State) : (s.dropSched).blk3 = s.blk3 := rfl
@[simp] theorem State.dropSched_faddr (s : State) : (s.dropSched).faddr = s.faddr := rfl
@[simp] theorem State.dropSched_f (s : State) : (s.dropSched).f = s.f := rfl
@[simp] theorem State.dropSched_mem (s : State) : (s.dropSched).mem = s.mem := rfl
@[simp] theorem State.dropSched_writable (s : State) : (s.dropSched).writable = s.writable := rfl
@[simp] theorem State.dropSched_script (s : State) : (s.dropSched).script = s.script := rfl
@[simp] theorem State.dropSched_sched (s : State) : (s.dropSched).sched = s.sched.tail := rfl
@[simp] theorem State.dropSched_reads (s : State) : (s.dropSched).reads = s.reads := rfl

/-! setScript replaces the script. -/

@[simp] theorem State.setScript_busy (s : State) (l : List HostOp) : (s.setScript l).busy = s.busy := rfl
@[simp] theorem State.setScript_done (s : State) (l : List HostOp) : (s.setScript l).done = s.done := rfl
@[simp] theorem State.setScript_err (s : State) (l : List HostOp) : (s.setScript l).err = s.err := rfl
@[simp] theorem State.setScript_dst (s : State) (l : List HostOp) : (s.setScript l).dst = s.dst := rfl
@[simp] theorem State.setScript_stride (s : State) (l : List HostOp) : (s.setScript l).stride = s.stride := rfl
@[simp] theorem State.setScript_blk0 (s : State) (l : List HostOp) : (s.setScript l).blk0 = s.blk0 := rfl
@[simp] theorem State.setScript_blk1 (s : State) (l : List HostOp) : (s.setScript l).blk1 = s.blk1 := rfl
@[simp] theorem State.setScript_blk2 (s : State) (l : List HostOp) : (s.setScript l).blk2 = s.blk2 := rfl
@[simp] theorem State.setScript_blk3 (s : State) (l : List HostOp) : (s.setScript l).blk3 = s.blk3 := rfl
@[simp] theorem State.setScript_faddr (s : State) (l : List HostOp) : (s.setScript l).faddr = s.faddr := rfl
@[simp] theorem State.setScript_f (s : State) (l : List HostOp) : (s.setScript l).f = s.f := rfl
@[simp] theorem State.setScript_mem (s : State) (l : List HostOp) : (s.setScript l).mem = s.mem := rfl
@[simp] theorem State.setScript_writable (s : State) (l : List HostOp) : (s.setScript l).writable = s.writable := rfl
@[simp] theorem State.setScript_script (s : State) (l : List HostOp) : (s.setScript l).script = l := rfl
@[simp] theorem State.setScript_sched (s : State) (l : List HostOp) : (s.setScript l).sched = s.sched := rfl
@[simp] theorem State.setScript_reads (s : State) (l : List HostOp) : (s.setScript l).reads = s.reads := rfl

/-! advance moves the index. -/

@[simp] theorem State.advance_busy (s : State) : (s.advance).busy = s.busy := rfl
@[simp] theorem State.advance_done (s : State) : (s.advance).done = s.done := rfl
@[simp] theorem State.advance_err (s : State) : (s.advance).err = s.err := rfl
@[simp] theorem State.advance_dst (s : State) : (s.advance).dst = s.dst := rfl
@[simp] theorem State.advance_stride (s : State) : (s.advance).stride = s.stride := rfl
@[simp] theorem State.advance_blk0 (s : State) : (s.advance).blk0 = s.blk0 := rfl
@[simp] theorem State.advance_blk1 (s : State) : (s.advance).blk1 = s.blk1 := rfl
@[simp] theorem State.advance_blk2 (s : State) : (s.advance).blk2 = s.blk2 := rfl
@[simp] theorem State.advance_blk3 (s : State) : (s.advance).blk3 = s.blk3 := rfl
@[simp] theorem State.advance_faddr (s : State) : (s.advance).faddr = s.faddr := rfl
@[simp] theorem State.advance_f (s : State) : (s.advance).f = { s.f with k := s.f.k + 1 } := rfl
@[simp] theorem State.advance_mem (s : State) : (s.advance).mem = s.mem := rfl
@[simp] theorem State.advance_writable (s : State) : (s.advance).writable = s.writable := rfl
@[simp] theorem State.advance_script (s : State) : (s.advance).script = s.script := rfl
@[simp] theorem State.advance_sched (s : State) : (s.advance).sched = s.sched := rfl
@[simp] theorem State.advance_reads (s : State) : (s.advance).reads = s.reads := rfl

/-! received appends to what the host has read. -/

@[simp] theorem State.received_busy (s : State) (r : Reading) : (s.received r).busy = s.busy := rfl
@[simp] theorem State.received_done (s : State) (r : Reading) : (s.received r).done = s.done := rfl
@[simp] theorem State.received_err (s : State) (r : Reading) : (s.received r).err = s.err := rfl
@[simp] theorem State.received_dst (s : State) (r : Reading) : (s.received r).dst = s.dst := rfl
@[simp] theorem State.received_stride (s : State) (r : Reading) : (s.received r).stride = s.stride := rfl
@[simp] theorem State.received_blk0 (s : State) (r : Reading) : (s.received r).blk0 = s.blk0 := rfl
@[simp] theorem State.received_blk1 (s : State) (r : Reading) : (s.received r).blk1 = s.blk1 := rfl
@[simp] theorem State.received_blk2 (s : State) (r : Reading) : (s.received r).blk2 = s.blk2 := rfl
@[simp] theorem State.received_blk3 (s : State) (r : Reading) : (s.received r).blk3 = s.blk3 := rfl
@[simp] theorem State.received_faddr (s : State) (r : Reading) : (s.received r).faddr = s.faddr := rfl
@[simp] theorem State.received_f (s : State) (r : Reading) : (s.received r).f = s.f := rfl
@[simp] theorem State.received_mem (s : State) (r : Reading) : (s.received r).mem = s.mem := rfl
@[simp] theorem State.received_writable (s : State) (r : Reading) : (s.received r).writable = s.writable := rfl
@[simp] theorem State.received_script (s : State) (r : Reading) : (s.received r).script = s.script := rfl
@[simp] theorem State.received_sched (s : State) (r : Reading) : (s.received r).sched = s.sched := rfl
@[simp] theorem State.received_reads (s : State) (r : Reading) : (s.received r).reads = r :: s.reads := rfl

/-! storeByte changes the memory. -/

@[simp] theorem State.storeByte_busy (s : State) (a : Word) (v : Byte) : (s.storeByte a v).busy = s.busy := rfl
@[simp] theorem State.storeByte_done (s : State) (a : Word) (v : Byte) : (s.storeByte a v).done = s.done := rfl
@[simp] theorem State.storeByte_err (s : State) (a : Word) (v : Byte) : (s.storeByte a v).err = s.err := rfl
@[simp] theorem State.storeByte_dst (s : State) (a : Word) (v : Byte) : (s.storeByte a v).dst = s.dst := rfl
@[simp] theorem State.storeByte_stride (s : State) (a : Word) (v : Byte) : (s.storeByte a v).stride = s.stride := rfl
@[simp] theorem State.storeByte_blk0 (s : State) (a : Word) (v : Byte) : (s.storeByte a v).blk0 = s.blk0 := rfl
@[simp] theorem State.storeByte_blk1 (s : State) (a : Word) (v : Byte) : (s.storeByte a v).blk1 = s.blk1 := rfl
@[simp] theorem State.storeByte_blk2 (s : State) (a : Word) (v : Byte) : (s.storeByte a v).blk2 = s.blk2 := rfl
@[simp] theorem State.storeByte_blk3 (s : State) (a : Word) (v : Byte) : (s.storeByte a v).blk3 = s.blk3 := rfl
@[simp] theorem State.storeByte_faddr (s : State) (a : Word) (v : Byte) : (s.storeByte a v).faddr = s.faddr := rfl
@[simp] theorem State.storeByte_f (s : State) (a : Word) (v : Byte) : (s.storeByte a v).f = s.f := rfl
@[simp] theorem State.storeByte_mem (s : State) (a : Word) (v : Byte) : (s.storeByte a v).mem = Memory.write s.mem a.toNat v := rfl
@[simp] theorem State.storeByte_writable (s : State) (a : Word) (v : Byte) : (s.storeByte a v).writable = s.writable := rfl
@[simp] theorem State.storeByte_script (s : State) (a : Word) (v : Byte) : (s.storeByte a v).script = s.script := rfl
@[simp] theorem State.storeByte_sched (s : State) (a : Word) (v : Byte) : (s.storeByte a v).sched = s.sched := rfl
@[simp] theorem State.storeByte_reads (s : State) (a : Word) (v : Byte) : (s.storeByte a v).reads = s.reads := rfl

/-! flagLaunch sets BUSY and clears DONE. -/

@[simp] theorem State.flagLaunch_busy (s : State) : (s.flagLaunch).busy = true := rfl
@[simp] theorem State.flagLaunch_done (s : State) : (s.flagLaunch).done = false := rfl
@[simp] theorem State.flagLaunch_err (s : State) : (s.flagLaunch).err = s.err := rfl
@[simp] theorem State.flagLaunch_dst (s : State) : (s.flagLaunch).dst = s.dst := rfl
@[simp] theorem State.flagLaunch_stride (s : State) : (s.flagLaunch).stride = s.stride := rfl
@[simp] theorem State.flagLaunch_blk0 (s : State) : (s.flagLaunch).blk0 = s.blk0 := rfl
@[simp] theorem State.flagLaunch_blk1 (s : State) : (s.flagLaunch).blk1 = s.blk1 := rfl
@[simp] theorem State.flagLaunch_blk2 (s : State) : (s.flagLaunch).blk2 = s.blk2 := rfl
@[simp] theorem State.flagLaunch_blk3 (s : State) : (s.flagLaunch).blk3 = s.blk3 := rfl
@[simp] theorem State.flagLaunch_faddr (s : State) : (s.flagLaunch).faddr = s.faddr := rfl
@[simp] theorem State.flagLaunch_f (s : State) : (s.flagLaunch).f = s.f := rfl
@[simp] theorem State.flagLaunch_mem (s : State) : (s.flagLaunch).mem = s.mem := rfl
@[simp] theorem State.flagLaunch_writable (s : State) : (s.flagLaunch).writable = s.writable := rfl
@[simp] theorem State.flagLaunch_script (s : State) : (s.flagLaunch).script = s.script := rfl
@[simp] theorem State.flagLaunch_sched (s : State) : (s.flagLaunch).sched = s.sched := rfl
@[simp] theorem State.flagLaunch_reads (s : State) : (s.flagLaunch).reads = s.reads := rfl

/-! flagComplete clears BUSY and sets DONE. -/

@[simp] theorem State.flagComplete_busy (s : State) : (s.flagComplete).busy = false := rfl
@[simp] theorem State.flagComplete_done (s : State) : (s.flagComplete).done = true := rfl
@[simp] theorem State.flagComplete_err (s : State) : (s.flagComplete).err = s.err := rfl
@[simp] theorem State.flagComplete_dst (s : State) : (s.flagComplete).dst = s.dst := rfl
@[simp] theorem State.flagComplete_stride (s : State) : (s.flagComplete).stride = s.stride := rfl
@[simp] theorem State.flagComplete_blk0 (s : State) : (s.flagComplete).blk0 = s.blk0 := rfl
@[simp] theorem State.flagComplete_blk1 (s : State) : (s.flagComplete).blk1 = s.blk1 := rfl
@[simp] theorem State.flagComplete_blk2 (s : State) : (s.flagComplete).blk2 = s.blk2 := rfl
@[simp] theorem State.flagComplete_blk3 (s : State) : (s.flagComplete).blk3 = s.blk3 := rfl
@[simp] theorem State.flagComplete_faddr (s : State) : (s.flagComplete).faddr = s.faddr := rfl
@[simp] theorem State.flagComplete_f (s : State) : (s.flagComplete).f = s.f := rfl
@[simp] theorem State.flagComplete_mem (s : State) : (s.flagComplete).mem = s.mem := rfl
@[simp] theorem State.flagComplete_writable (s : State) : (s.flagComplete).writable = s.writable := rfl
@[simp] theorem State.flagComplete_script (s : State) : (s.flagComplete).script = s.script := rfl
@[simp] theorem State.flagComplete_sched (s : State) : (s.flagComplete).sched = s.sched := rfl
@[simp] theorem State.flagComplete_reads (s : State) : (s.flagComplete).reads = s.reads := rfl

/-! flagDone sets DONE. -/

@[simp] theorem State.flagDone_busy (s : State) : (s.flagDone).busy = s.busy := rfl
@[simp] theorem State.flagDone_done (s : State) : (s.flagDone).done = true := rfl
@[simp] theorem State.flagDone_err (s : State) : (s.flagDone).err = s.err := rfl
@[simp] theorem State.flagDone_dst (s : State) : (s.flagDone).dst = s.dst := rfl
@[simp] theorem State.flagDone_stride (s : State) : (s.flagDone).stride = s.stride := rfl
@[simp] theorem State.flagDone_blk0 (s : State) : (s.flagDone).blk0 = s.blk0 := rfl
@[simp] theorem State.flagDone_blk1 (s : State) : (s.flagDone).blk1 = s.blk1 := rfl
@[simp] theorem State.flagDone_blk2 (s : State) : (s.flagDone).blk2 = s.blk2 := rfl
@[simp] theorem State.flagDone_blk3 (s : State) : (s.flagDone).blk3 = s.blk3 := rfl
@[simp] theorem State.flagDone_faddr (s : State) : (s.flagDone).faddr = s.faddr := rfl
@[simp] theorem State.flagDone_f (s : State) : (s.flagDone).f = s.f := rfl
@[simp] theorem State.flagDone_mem (s : State) : (s.flagDone).mem = s.mem := rfl
@[simp] theorem State.flagDone_writable (s : State) : (s.flagDone).writable = s.writable := rfl
@[simp] theorem State.flagDone_script (s : State) : (s.flagDone).script = s.script := rfl
@[simp] theorem State.flagDone_sched (s : State) : (s.flagDone).sched = s.sched := rfl
@[simp] theorem State.flagDone_reads (s : State) : (s.flagDone).reads = s.reads := rfl

/-! flagAbort clears BUSY. -/

@[simp] theorem State.flagAbort_busy (s : State) : (s.flagAbort).busy = false := rfl
@[simp] theorem State.flagAbort_done (s : State) : (s.flagAbort).done = s.done := rfl
@[simp] theorem State.flagAbort_err (s : State) : (s.flagAbort).err = s.err := rfl
@[simp] theorem State.flagAbort_dst (s : State) : (s.flagAbort).dst = s.dst := rfl
@[simp] theorem State.flagAbort_stride (s : State) : (s.flagAbort).stride = s.stride := rfl
@[simp] theorem State.flagAbort_blk0 (s : State) : (s.flagAbort).blk0 = s.blk0 := rfl
@[simp] theorem State.flagAbort_blk1 (s : State) : (s.flagAbort).blk1 = s.blk1 := rfl
@[simp] theorem State.flagAbort_blk2 (s : State) : (s.flagAbort).blk2 = s.blk2 := rfl
@[simp] theorem State.flagAbort_blk3 (s : State) : (s.flagAbort).blk3 = s.blk3 := rfl
@[simp] theorem State.flagAbort_faddr (s : State) : (s.flagAbort).faddr = s.faddr := rfl
@[simp] theorem State.flagAbort_f (s : State) : (s.flagAbort).f = s.f := rfl
@[simp] theorem State.flagAbort_mem (s : State) : (s.flagAbort).mem = s.mem := rfl
@[simp] theorem State.flagAbort_writable (s : State) : (s.flagAbort).writable = s.writable := rfl
@[simp] theorem State.flagAbort_script (s : State) : (s.flagAbort).script = s.script := rfl
@[simp] theorem State.flagAbort_sched (s : State) : (s.flagAbort).sched = s.sched := rfl
@[simp] theorem State.flagAbort_reads (s : State) : (s.flagAbort).reads = s.reads := rfl

/-! launch fills the in-flight record and sets the flags. -/

@[simp] theorem State.launch_busy (s : State) (op : Op) (sel : BitVec 1) : (s.launch op sel).busy = true := rfl
@[simp] theorem State.launch_done (s : State) (op : Op) (sel : BitVec 1) : (s.launch op sel).done = false := rfl
@[simp] theorem State.launch_err (s : State) (op : Op) (sel : BitVec 1) : (s.launch op sel).err = s.err := rfl
@[simp] theorem State.launch_dst (s : State) (op : Op) (sel : BitVec 1) : (s.launch op sel).dst = s.dst := rfl
@[simp] theorem State.launch_stride (s : State) (op : Op) (sel : BitVec 1) : (s.launch op sel).stride = s.stride := rfl
@[simp] theorem State.launch_blk0 (s : State) (op : Op) (sel : BitVec 1) : (s.launch op sel).blk0 = s.blk0 := rfl
@[simp] theorem State.launch_blk1 (s : State) (op : Op) (sel : BitVec 1) : (s.launch op sel).blk1 = s.blk1 := rfl
@[simp] theorem State.launch_blk2 (s : State) (op : Op) (sel : BitVec 1) : (s.launch op sel).blk2 = s.blk2 := rfl
@[simp] theorem State.launch_blk3 (s : State) (op : Op) (sel : BitVec 1) : (s.launch op sel).blk3 = s.blk3 := rfl
@[simp] theorem State.launch_faddr (s : State) (op : Op) (sel : BitVec 1) : (s.launch op sel).faddr = s.faddr := rfl
@[simp] theorem State.launch_f (s : State) (op : Op) (sel : BitVec 1) : (s.launch op sel).f = { op := op, blk := s.blockBytes, sel := sel, dst := s.dst, stride := s.stride, k := 0 } := rfl
@[simp] theorem State.launch_mem (s : State) (op : Op) (sel : BitVec 1) : (s.launch op sel).mem = s.mem := rfl
@[simp] theorem State.launch_writable (s : State) (op : Op) (sel : BitVec 1) : (s.launch op sel).writable = s.writable := rfl
@[simp] theorem State.launch_script (s : State) (op : Op) (sel : BitVec 1) : (s.launch op sel).script = s.script := rfl
@[simp] theorem State.launch_sched (s : State) (op : Op) (sel : BitVec 1) : (s.launch op sel).sched = s.sched := rfl
@[simp] theorem State.launch_reads (s : State) (op : Op) (sel : BitVec 1) : (s.launch op sel).reads = s.reads := rfl

/-! resetRegs clears every register. -/

@[simp] theorem State.resetRegs_busy (s : State) : (s.resetRegs).busy = false := rfl
@[simp] theorem State.resetRegs_done (s : State) : (s.resetRegs).done = false := rfl
@[simp] theorem State.resetRegs_err (s : State) : (s.resetRegs).err = 0 := rfl
@[simp] theorem State.resetRegs_dst (s : State) : (s.resetRegs).dst = 0 := rfl
@[simp] theorem State.resetRegs_stride (s : State) : (s.resetRegs).stride = 0 := rfl
@[simp] theorem State.resetRegs_blk0 (s : State) : (s.resetRegs).blk0 = 0 := rfl
@[simp] theorem State.resetRegs_blk1 (s : State) : (s.resetRegs).blk1 = 0 := rfl
@[simp] theorem State.resetRegs_blk2 (s : State) : (s.resetRegs).blk2 = 0 := rfl
@[simp] theorem State.resetRegs_blk3 (s : State) : (s.resetRegs).blk3 = 0 := rfl
@[simp] theorem State.resetRegs_faddr (s : State) : (s.resetRegs).faddr = 0 := rfl
@[simp] theorem State.resetRegs_f (s : State) : (s.resetRegs).f = s.f := rfl
@[simp] theorem State.resetRegs_mem (s : State) : (s.resetRegs).mem = s.mem := rfl
@[simp] theorem State.resetRegs_writable (s : State) : (s.resetRegs).writable = s.writable := rfl
@[simp] theorem State.resetRegs_script (s : State) : (s.resetRegs).script = s.script := rfl
@[simp] theorem State.resetRegs_sched (s : State) : (s.resetRegs).sched = s.sched := rfl
@[simp] theorem State.resetRegs_reads (s : State) : (s.resetRegs).reads = s.reads := rfl

/-! placeCommand changes the script and the schedule. -/

@[simp] theorem State.placeCommand_busy (s : State) (w : Word) : (s.placeCommand w).busy = s.busy := rfl
@[simp] theorem State.placeCommand_done (s : State) (w : Word) : (s.placeCommand w).done = s.done := rfl
@[simp] theorem State.placeCommand_err (s : State) (w : Word) : (s.placeCommand w).err = s.err := rfl
@[simp] theorem State.placeCommand_dst (s : State) (w : Word) : (s.placeCommand w).dst = s.dst := rfl
@[simp] theorem State.placeCommand_stride (s : State) (w : Word) : (s.placeCommand w).stride = s.stride := rfl
@[simp] theorem State.placeCommand_blk0 (s : State) (w : Word) : (s.placeCommand w).blk0 = s.blk0 := rfl
@[simp] theorem State.placeCommand_blk1 (s : State) (w : Word) : (s.placeCommand w).blk1 = s.blk1 := rfl
@[simp] theorem State.placeCommand_blk2 (s : State) (w : Word) : (s.placeCommand w).blk2 = s.blk2 := rfl
@[simp] theorem State.placeCommand_blk3 (s : State) (w : Word) : (s.placeCommand w).blk3 = s.blk3 := rfl
@[simp] theorem State.placeCommand_faddr (s : State) (w : Word) : (s.placeCommand w).faddr = s.faddr := rfl
@[simp] theorem State.placeCommand_f (s : State) (w : Word) : (s.placeCommand w).f = s.f := rfl
@[simp] theorem State.placeCommand_mem (s : State) (w : Word) : (s.placeCommand w).mem = s.mem := rfl
@[simp] theorem State.placeCommand_writable (s : State) (w : Word) : (s.placeCommand w).writable = s.writable := rfl
@[simp] theorem State.placeCommand_script (s : State) (w : Word) : (s.placeCommand w).script = cmdOp w :: s.script := rfl
@[simp] theorem State.placeCommand_sched (s : State) (w : Word) : (s.placeCommand w).sched = .host :: s.sched := rfl
@[simp] theorem State.placeCommand_reads (s : State) (w : Word) : (s.placeCommand w).reads = s.reads := rfl

/-! raise changes ERR and FADDR. -/

@[simp] theorem State.raise_busy (s : State) (e : Err) (i : Word) : (s.raise e i).busy = s.busy := by
  unfold State.raise; split <;> rfl
@[simp] theorem State.raise_done (s : State) (e : Err) (i : Word) : (s.raise e i).done = s.done := by
  unfold State.raise; split <;> rfl
@[simp] theorem State.raise_dst (s : State) (e : Err) (i : Word) : (s.raise e i).dst = s.dst := by
  unfold State.raise; split <;> rfl
@[simp] theorem State.raise_stride (s : State) (e : Err) (i : Word) : (s.raise e i).stride = s.stride := by
  unfold State.raise; split <;> rfl
@[simp] theorem State.raise_blk0 (s : State) (e : Err) (i : Word) : (s.raise e i).blk0 = s.blk0 := by
  unfold State.raise; split <;> rfl
@[simp] theorem State.raise_blk1 (s : State) (e : Err) (i : Word) : (s.raise e i).blk1 = s.blk1 := by
  unfold State.raise; split <;> rfl
@[simp] theorem State.raise_blk2 (s : State) (e : Err) (i : Word) : (s.raise e i).blk2 = s.blk2 := by
  unfold State.raise; split <;> rfl
@[simp] theorem State.raise_blk3 (s : State) (e : Err) (i : Word) : (s.raise e i).blk3 = s.blk3 := by
  unfold State.raise; split <;> rfl
@[simp] theorem State.raise_f (s : State) (e : Err) (i : Word) : (s.raise e i).f = s.f := by
  unfold State.raise; split <;> rfl
@[simp] theorem State.raise_mem (s : State) (e : Err) (i : Word) : (s.raise e i).mem = s.mem := by
  unfold State.raise; split <;> rfl
@[simp] theorem State.raise_writable (s : State) (e : Err) (i : Word) : (s.raise e i).writable = s.writable := by
  unfold State.raise; split <;> rfl
@[simp] theorem State.raise_script (s : State) (e : Err) (i : Word) : (s.raise e i).script = s.script := by
  unfold State.raise; split <;> rfl
@[simp] theorem State.raise_sched (s : State) (e : Err) (i : Word) : (s.raise e i).sched = s.sched := by
  unfold State.raise; split <;> rfl
@[simp] theorem State.raise_reads (s : State) (e : Err) (i : Word) : (s.raise e i).reads = s.reads := by
  unfold State.raise; split <;> rfl

/-! wrote changes the in-flight record's index and the flags. -/

@[simp] theorem State.wrote_err (s : State) : (s.wrote).err = s.err := by
  simp only [State.wrote]; split <;> rfl
@[simp] theorem State.wrote_dst (s : State) : (s.wrote).dst = s.dst := by
  simp only [State.wrote]; split <;> rfl
@[simp] theorem State.wrote_stride (s : State) : (s.wrote).stride = s.stride := by
  simp only [State.wrote]; split <;> rfl
@[simp] theorem State.wrote_blk0 (s : State) : (s.wrote).blk0 = s.blk0 := by
  simp only [State.wrote]; split <;> rfl
@[simp] theorem State.wrote_blk1 (s : State) : (s.wrote).blk1 = s.blk1 := by
  simp only [State.wrote]; split <;> rfl
@[simp] theorem State.wrote_blk2 (s : State) : (s.wrote).blk2 = s.blk2 := by
  simp only [State.wrote]; split <;> rfl
@[simp] theorem State.wrote_blk3 (s : State) : (s.wrote).blk3 = s.blk3 := by
  simp only [State.wrote]; split <;> rfl
@[simp] theorem State.wrote_faddr (s : State) : (s.wrote).faddr = s.faddr := by
  simp only [State.wrote]; split <;> rfl
@[simp] theorem State.wrote_mem (s : State) : (s.wrote).mem = s.mem := by
  simp only [State.wrote]; split <;> rfl
@[simp] theorem State.wrote_writable (s : State) : (s.wrote).writable = s.writable := by
  simp only [State.wrote]; split <;> rfl
@[simp] theorem State.wrote_script (s : State) : (s.wrote).script = s.script := by
  simp only [State.wrote]; split <;> rfl
@[simp] theorem State.wrote_sched (s : State) : (s.wrote).sched = s.sched := by
  simp only [State.wrote]; split <;> rfl
@[simp] theorem State.wrote_reads (s : State) : (s.wrote).reads = s.reads := by
  simp only [State.wrote]; split <;> rfl

/-! busError changes ERR, FADDR and BUSY. -/

@[simp] theorem State.busError_busy (s : State) (a : Word) : (s.busError a).busy = false := by
  simp [State.busError]
@[simp] theorem State.busError_done (s : State) (a : Word) : (s.busError a).done = s.done := by
  simp [State.busError]
@[simp] theorem State.busError_dst (s : State) (a : Word) : (s.busError a).dst = s.dst := by
  simp [State.busError]
@[simp] theorem State.busError_stride (s : State) (a : Word) : (s.busError a).stride = s.stride := by
  simp [State.busError]
@[simp] theorem State.busError_blk0 (s : State) (a : Word) : (s.busError a).blk0 = s.blk0 := by
  simp [State.busError]
@[simp] theorem State.busError_blk1 (s : State) (a : Word) : (s.busError a).blk1 = s.blk1 := by
  simp [State.busError]
@[simp] theorem State.busError_blk2 (s : State) (a : Word) : (s.busError a).blk2 = s.blk2 := by
  simp [State.busError]
@[simp] theorem State.busError_blk3 (s : State) (a : Word) : (s.busError a).blk3 = s.blk3 := by
  simp [State.busError]
@[simp] theorem State.busError_f (s : State) (a : Word) : (s.busError a).f = s.f := by
  simp [State.busError]
@[simp] theorem State.busError_mem (s : State) (a : Word) : (s.busError a).mem = s.mem := by
  simp [State.busError]
@[simp] theorem State.busError_writable (s : State) (a : Word) : (s.busError a).writable = s.writable := by
  simp [State.busError]
@[simp] theorem State.busError_script (s : State) (a : Word) : (s.busError a).script = s.script := by
  simp [State.busError]
@[simp] theorem State.busError_sched (s : State) (a : Word) : (s.busError a).sched = s.sched := by
  simp [State.busError]
@[simp] theorem State.busError_reads (s : State) (a : Word) : (s.busError a).reads = s.reads := by
  simp [State.busError]

/-! setReg changes operand registers. -/

@[simp] theorem State.setReg_busy (s : State) (r : Reg) (v : Word) : (s.setReg r v).busy = s.busy := by
  cases r <;> rfl
@[simp] theorem State.setReg_done (s : State) (r : Reg) (v : Word) : (s.setReg r v).done = s.done := by
  cases r <;> rfl
@[simp] theorem State.setReg_err (s : State) (r : Reg) (v : Word) : (s.setReg r v).err = s.err := by
  cases r <;> rfl
@[simp] theorem State.setReg_faddr (s : State) (r : Reg) (v : Word) : (s.setReg r v).faddr = s.faddr := by
  cases r <;> rfl
@[simp] theorem State.setReg_f (s : State) (r : Reg) (v : Word) : (s.setReg r v).f = s.f := by
  cases r <;> rfl
@[simp] theorem State.setReg_mem (s : State) (r : Reg) (v : Word) : (s.setReg r v).mem = s.mem := by
  cases r <;> rfl
@[simp] theorem State.setReg_writable (s : State) (r : Reg) (v : Word) : (s.setReg r v).writable = s.writable := by
  cases r <;> rfl
@[simp] theorem State.setReg_script (s : State) (r : Reg) (v : Word) : (s.setReg r v).script = s.script := by
  cases r <;> rfl
@[simp] theorem State.setReg_sched (s : State) (r : Reg) (v : Word) : (s.setReg r v).sched = s.sched := by
  cases r <;> rfl
@[simp] theorem State.setReg_reads (s : State) (r : Reg) (v : Word) : (s.setReg r v).reads = s.reads := by
  cases r <;> rfl

end Sys2Proof.Machine
end

