-- ==== Sys2Proof/Laws/Ops.lean ====
section
/-! SUPPORT. What each shared operation of Ops and Engine can do, said once. -/
namespace Sys2Proof.Machine

theorem State.raise_first {s : State} (h : s.err = 0) (e : Err) (i : Word) :
    s.raise e i = { s with err := e.code, faddr := e.recordedAddr i s.faddr } := by
  simp [State.raise, h]

theorem State.raise_later {s : State} (h : s.err ≠ 0) (e : Err) (i : Word) : s.raise e i = s := if_neg h

theorem State.command_latched {s : State} (h : s.err ≠ 0) (g : State → State) : s.command g = s := if_pos h

theorem State.command_busy {s : State} (h : s.err = 0) (hb : s.busy = true) (g : State → State) :
    s.command g = { s with err := 2 } := by
  simp [State.command, h, hb, State.raise_first, Err.code, Err.recordedAddr]

theorem State.command_ready {s : State} (h : s.err = 0) (hb : s.busy = false) (g : State → State) :
    s.command g = g s := by
  simp [State.command, h, hb]

/-- Every command but `SRST` is dropped, or latches `BusyCmd`, or has its effect on an idle block without an error. -/
theorem State.command_cases (s : State) (g : State → State) :
    (s.err ≠ 0 ∧ s.command g = s) ∨ (s.err = 0 ∧ s.busy = true ∧ s.command g = { s with err := 2 }) ∨
      (s.err = 0 ∧ s.busy = false ∧ s.command g = g s) := by
  by_cases h : s.err = 0
  · by_cases hb : s.busy = true
    · exact .inr (.inl ⟨h, hb, State.command_busy h hb g⟩)
    · exact .inr (.inr ⟨h, by simpa using hb, State.command_ready h (by simpa using hb) g⟩)
  · exact .inl ⟨h, State.command_latched h g⟩

theorem State.memWrite_ok {s : State} {a : Word} (h : s.isWritable a = true) (v : Byte) :
    s.memWrite a v = some (s.storeByte a v) := by
  simp [State.memWrite, h]

theorem State.memWrite_refused {s : State} {a : Word} (h : s.isWritable a = false) (v : Byte) :
    s.memWrite a v = none := by
  simp [State.memWrite, h]

theorem State.readByte_storeByte (s : State) (a b : Word) (v : Byte) :
    (s.storeByte a v).readByte b = if b = a then v else s.readByte b := by
  simp only [State.readByte, State.storeByte_mem, Memory.read_write, BitVec.toNat_inj]

/-- The engine's step for one entry: the byte is stored and the index advances, or the operation is abandoned. -/
theorem engineWrite_cases (a : Word) (v : Byte) (s : State) :
    (s.isWritable a = true ∧ engineWrite a v s = (s.storeByte a v).wrote) ∨
      (s.isWritable a = false ∧ engineWrite a v s = s.busError a) := by
  cases h : s.isWritable a
  · exact .inr ⟨rfl, by simp [engineWrite, State.memWrite_refused h]⟩
  · exact .inl ⟨rfl, by simp [engineWrite, State.memWrite_ok h]⟩

@[simp] theorem State.wrote_k (s : State) : s.wrote.f.k = s.f.k + 1 := by
  simp only [State.wrote]; split <;> rfl

/-- Before the last entry an accepted write only advances the index. -/
theorem State.wrote_pending {s : State} (h : s.f.k + 1 ≠ s.f.writeSeq.length) :
    s.wrote = s.advance := if_neg h

/-- The last entry completes the operation. -/
theorem State.wrote_last {s : State} (h : s.f.k + 1 = s.f.writeSeq.length) :
    s.wrote = s.advance.flagComplete := if_pos h

/-- The write sequence does not depend on the index. -/
theorem InFlight.writeSeq_setK (f : InFlight) (k : Nat) : { f with k := k }.writeSeq = f.writeSeq := rfl

theorem engineStep_next {s t : State} (h : engineStep s = .next t) :
    ∃ w, s.f.writeSeq[s.f.k]? = some w ∧ t = engineWrite w.1 w.2 s := by
  unfold engineStep at h
  split at h
  · next w hw => exact ⟨w, hw, (Host.Outcome.next.inj h).symm⟩
  · cases h

theorem engineStep_some {s : State} {w : Word × Byte} (h : s.f.writeSeq[s.f.k]? = some w) :
    engineStep s = .next (engineWrite w.1 w.2 s) := by
  simp [engineStep, h]

theorem InFlight.pixelWrites_length (f : InFlight) (i : Nat) : (f.pixelWrites i).length = f.op.lanes.length := by
  simp [InFlight.pixelWrites]

/-- The number of byte writes of an operation: 16 pixels times its lanes (20_memory.md rule R58). -/
theorem InFlight.writeSeq_length (f : InFlight) : f.writeSeq.length = 16 * f.op.lanes.length := by
  simp only [InFlight.writeSeq, List.length_flatMap, InFlight.pixelWrites_length, List.map_const', List.length_range,
    List.sum_replicate, smul_eq_mul]

end Sys2Proof.Machine
end

