-- ==== Sys2Proof/Laws/PerInstr.lean ====
section
/-! SUPPORT. The per-instruction family EncodeLegal: the word of every command is legal (30_encoding.md rule R85). -/
namespace Sys2Proof.Laws.EncodeLegal

/-- The command is well formed and its word is legal. -/
def Statement (i : Instr) : Prop := i.wellFormed = true ∧ legal (encode i) = true

theorem bit_cases (sel : BitVec 1) : sel = 0 ∨ sel = 1 := by
  revert sel; decide

theorem nop : Statement .nop := by unfold Statement; decide
theorem alpha (sel : BitVec 1) : Statement (.alpha sel) := by
  obtain rfl | rfl := bit_cases sel <;> (unfold Statement; decide)
theorem colorrgb (sel : BitVec 1) : Statement (.colorrgb sel) := by
  obtain rfl | rfl := bit_cases sel <;> (unfold Statement; decide)
theorem srst : Statement .srst := by unfold Statement; decide
theorem dxt1 (sel : BitVec 1) : Statement (.dxt1 sel) := by
  obtain rfl | rfl := bit_cases sel <;> (unfold Statement; decide)
theorem dxt5 : Statement .dxt5 := by unfold Statement; decide
theorem dxt5f : Statement .dxt5f := by unfold Statement; decide

end Sys2Proof.Laws.EncodeLegal
end

