-- ==== Sys2Proof/Laws/Step.lean ====
section
/-! SUPPORT. What a command, a host step, a turn and a step of the machine can do: one inversion lemma each. -/
namespace Sys2Proof.Machine

/-- The effect of a command other than `SRST` on an idle block without a latched error. -/
def commandEffect : Instr → State → State
  | .nop => State.flagDone
  | .alpha sel => fun s => s.launch .alpha sel
  | .colorrgb sel => fun s => s.launch .colorrgb sel
  | .srst => State.resetRegs
  | .dxt1 sel => fun s => s.launch .dxt1 sel
  | .dxt5 => fun s => s.launch .dxt5 0
  | .dxt5f => fun s => s.launch .dxt5 0

theorem exec_srst (s : State) : exec .srst s = .next s.resetRegs := rfl

theorem exec_command {i : Instr} (h : i ≠ .srst) (s : State) : exec i s = .next (s.command (commandEffect i)) := by
  cases i <;> first | rfl | exact absurd rfl h

/-- A command always answers a next state. -/
theorem exec_cases (i : Instr) (s : State) :
    (i = .srst ∧ exec i s = .next s.resetRegs) ∨ (i ≠ .srst ∧ exec i s = .next (s.command (commandEffect i))) := by
  by_cases h : i = .srst
  · exact .inl ⟨h, h ▸ exec_srst s⟩
  · exact .inr ⟨h, exec_command h s⟩

/-- What the step of the host can make of the state `s` from which it was taken off the script. -/
theorem hostOp_cases {op : HostOp} {s t : State} (h : hostOp op s = .next t) :
    t = s ∨ (∃ r, t = s.received r) ∨ (∃ r v, t = s.setReg r v) ∨ (∃ a v, op = .memWrite a v ∧ t = s.storeByte a v) ∨
      (op = .wait ∧ t = waitPoll s) ∨
      (∃ bits off w, op = .regWrite bits off w ∧ regAt off = some .cmd ∧
        ((∃ i, decode w = .ok i ∧ exec i s = .next t) ∨ (∃ r, decode w = .error r) ∧ t = illegalCommand s)) := by
  cases op with
  | memWrite a v => exact .inr (.inr (.inr (.inl ⟨a, v, rfl, (Host.Outcome.next.inj h).symm⟩)))
  | memRead a => exact .inr (.inl ⟨_, (Host.Outcome.next.inj h).symm⟩)
  | wait => exact .inr (.inr (.inr (.inr (.inl ⟨rfl, (Host.Outcome.next.inj h).symm⟩))))
  | regRead bits off =>
    simp only [hostOp, portRead] at h
    split at h
    · exact .inr (.inl ⟨_, (Host.Outcome.next.inj h).symm⟩)
    · cases h
  | regWrite bits off w =>
    simp only [hostOp, portWrite] at h
    split at h
    · split at h
      · next hc =>
        refine .inr (.inr (.inr (.inr (.inr ⟨bits, off, w, rfl, hc, ?_⟩))))
        unfold cmdWrite at h
        split at h
        · next i hi => exact .inl ⟨i, hi, h⟩
        · next r hr => exact .inr ⟨⟨r, hr⟩, (Host.Outcome.next.inj h).symm⟩
      · exact .inr (.inr (.inl ⟨_, _, (Host.Outcome.next.inj h).symm⟩))
      · exact .inl (Host.Outcome.next.inj h).symm
    · cases h

theorem hostTurn_cases {s t : State} (h : hostTurn s = .next t) :
    (s.script = [] ∧ t = s) ∨
      ∃ op rest, s.script = op :: rest ∧ hostOp op (s.setScript rest) = .next t := by
  unfold hostTurn at h
  split at h
  · next hs => exact .inl ⟨hs, (Host.Outcome.next.inj h).symm⟩
  · next op rest hs => exact .inr ⟨op, rest, hs, h⟩

theorem engineTurn_cases {s t : State} (h : engineTurn s = .next t) :
    (s.busy = false ∧ t = s) ∨
      (s.busy = true ∧ ∃ w, s.f.writeSeq[s.f.k]? = some w ∧ t = engineWrite w.1 w.2 s) := by
  unfold engineTurn at h
  split at h
  · next hb => exact .inr ⟨hb, engineStep_next h⟩
  · next hb => exact .inl ⟨by simpa using hb, (Host.Outcome.next.inj h).symm⟩

/-- A step is the host's turn, the engine's turn or a reset, on the state with the schedule's choice used up. -/
theorem step_cases {s t : State} (h : step s = .next t) :
    (s.nextAgent = .host ∧ hostTurn s.dropSched = .next t) ∨ (s.nextAgent = .engine ∧ engineTurn s.dropSched = .next t) ∨
      (s.nextAgent = .rst ∧ t = s.dropSched.resetRegs) := by
  unfold step agentTurn at h
  split at h
  · next ha => exact .inl ⟨ha, h⟩
  · next ha => exact .inr (.inl ⟨ha, h⟩)
  · next ha => exact .inr (.inr ⟨ha, (Host.Outcome.next.inj h).symm⟩)

theorem waitPoll_fields (s : State) :
    (waitPoll s).busy = s.busy ∧ (waitPoll s).done = s.done ∧ (waitPoll s).err = s.err ∧ (waitPoll s).faddr = s.faddr ∧
      (waitPoll s).f = s.f ∧ (waitPoll s).mem = s.mem ∧ (waitPoll s).writable = s.writable := by
  simp only [waitPoll]
  split <;> exact ⟨rfl, rfl, rfl, rfl, rfl, rfl, rfl⟩

end Sys2Proof.Machine
end

