-- ==== Sys2Proof/Laws/Run.lean ====
section
/-! SUPPORT. Runs: steps and engine steps one after another, the memory after a write sequence, and the first step of a decode command. -/
namespace Sys2Proof.Machine

theorem Memory.applyWrites_cons (m : Memory) (w : Word × Byte) (ws : List (Word × Byte)) :
    Memory.applyWrites m (w :: ws) = Memory.applyWrites (Memory.write m w.1.toNat w.2) ws := rfl

theorem Memory.applyWrites_append (m : Memory) (xs ys : List (Word × Byte)) :
    Memory.applyWrites m (xs ++ ys) = Memory.applyWrites (Memory.applyWrites m xs) ys := by
  simp [Memory.applyWrites, List.foldl_append]

/-- One more entry of a write sequence is one more write. -/
theorem Memory.applyWrites_take_succ (m : Memory) {ws : List (Word × Byte)} {k : Nat} {w : Word × Byte}
    (h : ws[k]? = some w) :
    Memory.applyWrites m (ws.take (k + 1)) = Memory.write (Memory.applyWrites m (ws.take k)) w.1.toNat w.2 := by
  rw [List.take_add_one, h, Memory.applyWrites_append]
  rfl

/-- Outside the addresses written every byte stays. -/
theorem Memory.read_applyWrites_other (m : Memory) (ws : List (Word × Byte)) {a : Word} (h : ∀ w ∈ ws, w.1 ≠ a) :
    Memory.read (Memory.applyWrites m ws) a.toNat = Memory.read m a.toNat := by
  induction ws generalizing m with
  | nil => rfl
  | cons w ws ih =>
    rw [Memory.applyWrites_cons, ih _ fun x hx => h x (List.mem_cons_of_mem _ hx), Memory.read_write, if_neg]
    exact fun e => h w List.mem_cons_self (BitVec.eq_of_toNat_eq e.symm)

theorem State.isWritable_congr {s t : State} (h : t.writable = s.writable) (a : Word) :
    t.isWritable a = s.isWritable a := by
  simp [State.isWritable, h]

theorem runSteps_succ {n : Nat} {s t : State} (h : step s = .next t) : runSteps (n + 1) s = runSteps n t := by
  simp [runSteps, h]

theorem runSteps_add {a b : Nat} {s t : State} (h : runSteps a s = .next t) : runSteps (a + b) s = runSteps b t := by
  induction a generalizing s with
  | zero => simp only [runSteps, Host.Outcome.next.injEq] at h; rw [h, Nat.zero_add]
  | succ a ih =>
    rw [Nat.succ_add]
    simp only [runSteps] at h ⊢
    split at h
    · next u hu => exact ih h
    · cases h
    · cases h

theorem engineRun_succ {n : Nat} {s t : State} (h : engineTurn s = .next t) : engineRun (n + 1) s = engineRun n t := by
  simp [engineRun, h]

theorem engineRun_add {a b : Nat} {s t : State} (h : engineRun a s = .next t) :
    engineRun (a + b) s = engineRun b t := by
  induction a generalizing s with
  | zero => simp only [engineRun, Host.Outcome.next.injEq] at h; rw [h, Nat.zero_add]
  | succ a ih =>
    rw [Nat.succ_add]
    simp only [engineRun] at h ⊢
    split at h
    · next u hu => exact ih h
    · cases h
    · cases h

theorem engineTurn_idle {s : State} (h : s.busy = false) : engineTurn s = .next s := by
  simp [engineTurn, h]

/-- An idle engine stays where it is. -/
theorem engineRun_idle (n : Nat) {s : State} (h : s.busy = false) : engineRun n s = .next s := by
  induction n with
  | zero => rfl
  | succ n ih => rw [engineRun_succ (engineTurn_idle h), ih]

theorem engineTurn_busy {s : State} {w : Word × Byte} (hb : s.busy = true) (h : s.f.writeSeq[s.f.k]? = some w) :
    engineTurn s = .next (engineWrite w.1 w.2 s) := by
  simp [engineTurn, hb, engineStep_some h]

/-- With the schedule empty a busy machine steps its engine. -/
theorem step_busy {s : State} (hb : s.busy = true) (hs : s.sched = []) : step s = engineTurn s := by
  have hd : s.dropSched = s := by ext1 <;> simp [hs]
  simp [step, State.nextAgent, hs, hb, hd, agentTurn]

/-- A decode command on an idle block without an error launches its operation. -/
theorem exec_launch {i : Instr} {op : Op} {sel : BitVec 1} {s : State} (hi : commandOp i = some (op, sel))
    (hr : s.ready) : exec i s = .next (s.launch op sel) := by
  have hne : i ≠ .srst := by rintro rfl; cases hi
  rw [exec_command hne, State.command_ready hr.1 hr.2]
  cases i <;> simp [commandOp] at hi <;> (obtain ⟨rfl, rfl⟩ := hi; rfl)

theorem InFlight.writeSeq_pos (f : InFlight) : 0 < f.writeSeq.length := by
  rw [InFlight.writeSeq_length]; cases f.op <;> decide

theorem InFlight.writeSeq_le (f : InFlight) : f.writeSeq.length ≤ 64 := by
  rw [InFlight.writeSeq_length]; cases f.op <;> decide

end Sys2Proof.Machine
end

