-- ==== Sys2Proof/Tests/Slice0.lean ====
section
/-! SUPPORT. The model's own tests: words and worked values of the spec, one step at a time, and for every claim with premises a named theorem showing a state that meets them. -/
namespace Sys2Proof.Tests
open Sys2Proof Sys2Proof.Machine

/-! Well-formedness: an ill-formed term for each check (30_encoding.md rule R85; 10_state.md rule R31). -/

theorem test_illformed_rsv : legal 0x00000020 = false := by decide
theorem test_illformed_op : legal 0x0000000C = false := by decide
theorem test_illformed_sel : legal 0x0000001E = false := by decide
theorem test_illformed_width : HostOp.wellFormed (.regRead 16 0x08) = false := by decide
theorem test_illformed_offset : HostOp.wellFormed (.regWrite 32 0x0A 0) = false := by decide
theorem test_wellformed_host : HostOp.wellFormed (wr .dst 0x1000) = true := by decide

/-! Decoding: the encodings of opcode_table.json written out bit by bit, and vectors E8 to E13 of 95_test_vectors.md. -/

theorem test_decode_nop : decode 0b00000000000000000000000000000000 = .ok .nop := by rfl
theorem test_decode_alpha0 : decode 0b00000000000000000000000000000001 = .ok (.alpha 0) := by rfl
theorem test_decode_alpha1 : decode 0b00000000000000000000000000010001 = .ok (.alpha 1) := by rfl
theorem test_decode_colorrgb0 : decode 0b00000000000000000000000000000010 = .ok (.colorrgb 0) := by rfl
theorem test_decode_colorrgb1 : decode 0b00000000000000000000000000010010 = .ok (.colorrgb 1) := by rfl
theorem test_decode_srst : decode 0b00000000000000000000000000000011 = .ok .srst := by rfl
theorem test_decode_dxt1_0 : decode 0b00000000000000000000000000001011 = .ok (.dxt1 0) := by rfl
theorem test_decode_dxt1_1 : decode 0b00000000000000000000000000011011 = .ok (.dxt1 1) := by rfl
theorem test_decode_dxt5 : decode 0b00000000000000000000000000001110 = .ok .dxt5 := by rfl
theorem test_decode_dxt5f : decode 0b00000000000000000000000000001111 = .ok .dxt5f := by rfl
theorem test_decode_e8 : decode 0x00000010 = .error .selNonZero := by rfl
theorem test_decode_e11 : decode 0x0000010B = .error .rsvNonZero := by rfl
theorem test_decode_e13 : decode 0xFFFFFFFF = .error .rsvNonZero := by rfl
theorem test_illegal_ops : ∀ op ∈ [4, 5, 6, 7, 8, 9, 10, 12, 13], decode (BitVec.ofNat 32 op) = .error .noOperation := by
  simp only [List.forall_mem_cons, List.not_mem_nil, false_imp_iff, implies_true, and_true]
  exact ⟨rfl, rfl, rfl, rfl, rfl, rfl, rfl, rfl, rfl⟩
theorem test_rows_disjoint :
    opcodeRows.Pairwise fun r q => r.1 &&& (r.2 &&& q.2) ≠ q.1 &&& (r.2 &&& q.2) := by decide
theorem test_table_word : decodeTableWord 32 0x1B = some (.dxt1 1) := by decide

/-! The states of the tests: the blocks of 95_test_vectors.md in the registers. -/

/-- Idle, with a 16-byte block, a destination and a stride in the registers. -/
def loaded (b0 b1 b2 b3 dst stride : Word) : State :=
  { State.reset with blk0 := b0, blk1 := b1, blk2 := b2, blk3 := b3, dst := dst, stride := stride }

/-- `AB ++ CB` at 0x3000, stride 16 (vector X1). -/
def x1 : State := loaded 0xC68864C8 0x053977FA 0x001FF800 0xFF001BE4 0x3000 16

/-- `CB` at 0x1000, stride 16 (vector C13). -/
def c13 : State := loaded 0x001FF800 0xFF001BE4 0 0 0x1000 16

/-- `DXT1 0` of `CB` in flight, `k` entries performed. -/
def inFlight (k : Nat) : State := { c13 with f := { c13.operation .dxt1 0 with k := k }, busy := true }

/-- The same with a write in flight that the platform refuses from 0x1008 on (vector F9). -/
def bounded (k : Nat) : State := { inFlight k with writable := [{ lo := 0, hi := 0x1007 }] }

/-- An error latched. -/
def latched : State := { State.reset with err := 1 }

/-- On a platform whose one region is the whole address space every address accepts a write. -/
theorem everywhere {s : State} (h : s.writable = [{ lo := 0x00000000, hi := 0xFFFFFFFF }]) (a : Word) : s.isWritable a = true := by
  have := a.isLt
  simp [State.isWritable, h]
  omega

/-! Worked values (palettes of 95_test_vectors.md part 2). -/

/-- An eight-byte block with the given first four bytes. -/
def block (b0 b1 b2 b3 : Byte) : Block8 := #v[b0, b1, b2, b3, 0, 0, 0, 0]

theorem test_expand_abcd : expand565 0xABCD = { r := 168, g := 120, b := 104, a := 255 } := by decide
theorem test_palette_c1 : pal4 (block 0x00 0xF8 0x1F 0x00) 3 = { r := 82, g := 0, b := 165, a := 255 } := by decide
theorem test_palette_c2 : pal4 (block 0x1F 0x00 0x00 0xF8) 2 = { r := 124, g := 0, b := 124, a := 255 } := by decide
theorem test_palette_c8 : pal4 (block 0x21 0x08 0x00 0x00) 2 = { r := 5, g := 2, b := 5, a := 255 } := by decide
theorem test_palette_c12 : pal4 (block 0x20 0x00 0x1F 0x00) 3 = { r := 0, g := 1, b := 165, a := 255 } := by decide
theorem test_palette_transparent : pal4 (block 0x34 0x12 0x34 0x12) 3 = { r := 0, g := 0, b := 0, a := 0 } := by decide
theorem test_palette_a3 : [0, 1, 2, 3, 4, 5, 6, 7].map (pal8 (block 200 100 0 0)) = [200, 100, 185, 171, 157, 142, 128, 114] := by
  decide
theorem test_palette_a12 : [0, 1, 2, 3, 4, 5, 6, 7].map (pal8 (block 13 240 0 0)) = [13, 240, 58, 103, 149, 194, 0, 255] := by
  decide
theorem test_alpha_indices :
    (List.range 16).map (fun i => (ai (lowHalf x1.blockBytes) i).toNat) = [0, 1, 2, 3, 4, 5, 6, 7, 7, 6, 5, 4, 3, 2, 1, 0] := by
  decide
theorem test_colour_indices :
    (List.range 16).map (fun i => (ci (highHalf x1.blockBytes) i).toNat) = [0, 1, 2, 3, 3, 2, 1, 0, 0, 0, 0, 0, 3, 3, 3, 3] := by
  decide

/-! Write sequences (vectors M7, M5, M4, X1). -/

theorem test_write_sequence_m7 :
    (c13.operation .dxt1 0).writeSeq.take 9 =
      [(0x1000, 0xF8), (0x1001, 0x00), (0x1002, 0x00), (0x1003, 0xFF), (0x1004, 0x00), (0x1005, 0x00), (0x1006, 0xF8),
        (0x1007, 0xFF), (0x1008, 0xA5)] := by decide
theorem test_write_sequence_alpha :
    ((loaded 0xC68864C8 0x053977FA 0 0 0x2000 16).operation .alpha 0).writeSeq.take 3 =
      [(0x2003, 0xC8), (0x2007, 0x64), (0x200B, 0xB9)] := by decide
theorem test_write_sequence_colorrgb :
    (x1.operation .colorrgb 1).writeSeq.take 4 = [(0x3000, 0xF8), (0x3001, 0x00), (0x3002, 0x00), (0x3004, 0x00)] := by decide
theorem test_write_sequence_dxt5_row1 :
    ((x1.operation .dxt5 0).writeSeq.drop 16).take 4 = [(0x3010, 0x52), (0x3011, 0x00), (0x3012, 0xA5), (0x3013, 0x9D)] := by
  decide
theorem test_address_wraps : (({ c13 with dst := 0xFFFFFFF8 }).operation .dxt1 0).base 2 = 0x00000000 := by decide
theorem test_backward_stride :
    (({ c13 with dst := 0x1030, stride := 0xFFFFFFF0 }).operation .dxt1 0).base 12 = 0x00001000 := by decide

/-! One step (vectors Y1, Y2, F1, F3, F6, F9 and the launch of each command). -/

theorem test_nop_y1 : exec .nop State.reset = .next { State.reset with done := true } := by rfl
theorem test_nop_status : ({ State.reset with done := true } : State).statusWord = 0x00000002 := by decide
theorem test_srst_y2 : exec .srst { c13 with done := true } = .next State.reset := by rfl
theorem test_srst_busy : exec .srst (inFlight 6) = .next { State.reset with f := (inFlight 6).f } := by rfl
theorem test_dxt1_launch : exec (.dxt1 0) c13 = .next (inFlight 0) := by rfl
theorem test_dxt1_busy_f3 : exec (.dxt1 0) (inFlight 5) = .next { inFlight 5 with err := 2 } := by rfl
theorem test_busy_status_f3 : ({ inFlight 5 with err := 2 } : State).statusWord = 0x00000021 := by decide
theorem test_colorrgb_launch : exec (.colorrgb 1) x1 = .next { x1 with f := x1.operation .colorrgb 1, busy := true } := by rfl
theorem test_alpha_dropped : exec (.alpha 0) latched = .next latched := by rfl
theorem test_dxt5_launch : exec .dxt5 x1 = .next { x1 with f := x1.operation .dxt5 0, busy := true } := by rfl
theorem test_dxt5f_launch : exec .dxt5f x1 = .next { x1 with f := x1.operation .dxt5 0, busy := true } := by rfl
theorem test_illegal_f1 : cmdWrite 0x0000000C { State.reset with done := true } = .next { State.reset with done := true, err := 1 } := by
  rfl
theorem test_illegal_busy_f4 : cmdWrite 0x0000000C (inFlight 0) = .next { inFlight 0 with err := 2 } := by rfl
theorem test_engine_write : (engineWrite 0x1008 0xA5 (inFlight 8)).mem = [(0x1008, 0xA5)] := by decide
theorem test_engine_refused_f6 :
    (engineWrite 0x5003 0xC8 { inFlight 0 with writable := [] }).statusWord = 0x00000030 ∧
      (engineWrite 0x5003 0xC8 { inFlight 0 with writable := [] }).faddr = 0x5003 := by decide
theorem test_first_error_wins_f9 :
    (engineWrite 0x1008 0xA5 { bounded 8 with err := 2 }).statusWord = 0x00000020 ∧
      (engineWrite 0x1008 0xA5 { bounded 8 with err := 2 }).faddr = 0 := by decide
theorem test_placed_word_runs : step (State.reset.withFetchWord 32 0x00) = .next { State.reset with done := true } := by rfl
theorem test_reset_idles : step State.reset = .next State.reset := by rfl

/-! Host sequences (vectors H3, H5, H7, H8). -/

theorem test_extents :
    [conversionExtent 6 4, conversionExtent 1 1, conversionExtent 0 7, conversionExtent 5 5, getBufferSize 6 4] =
      [104, 28, 0, 172, 96] := by decide
theorem test_h2_destinations :
    [blockOffset 8 0 0, blockOffset 8 1 0, blockOffset 8 0 1, blockOffset 8 1 1] = [0x00, 0x10, 0x80, 0x90] := by decide
theorem test_pixel_words :
    ({ State.reset with mem := [(8, 0x01), (9, 0x02), (10, 0x03), (11, 0x04)] } : State).pixelLittle 8 = 0x04030201 ∧
      ({ State.reset with mem := [(8, 0x01), (9, 0x02), (10, 0x03), (11, 0x04)] } : State).pixelBig 8 = 0x01020304 := by decide
theorem test_status_readings :
    statusCompleted 0x00000002 = true ∧ statusCompleted 0x00000022 = false ∧ statusFailed 0x00000030 = true := by decide
theorem test_source_too_short : convertDxt1 [0, 0, 0] 0 4 4 = none := by decide

/-! Premises met: for each claim with premises, a state and operands that meet them together. -/

theorem test_premise_ReservedBitsMustBeZero : rsvField 0x80000000 ≠ 0 := by decide
theorem test_premise_SelChoosesTheHalf : (7 : Nat) < 8 ∧ Instr.dxt5f ∈ [Instr.nop, .srst, .dxt5, .dxt5f] := by decide
theorem test_premise_BlockBytesInRegisters : (0 : Nat) < 4 ∧ (3 : Nat) < 4 := by decide

/-- A host about to load sixteen zero bytes. -/
def loading : State := { State.reset with script := ldblk16 (fun _ => 0) ++ [cmd .dxt5] }

theorem test_premise_LoadBlockSixteen :
    loading.script = ldblk16 (fun _ => 0) ++ [cmd .dxt5] ∧ loading.sched = [] ∧ loading.busy = false := ⟨rfl, rfl, rfl⟩
theorem test_premise_ReservedOffsets : 0x24 % 4 = 0 ∧ ∀ r : Reg, regOffset r ≠ 0x24 :=
  ⟨rfl, fun r => by cases r <;> decide⟩
theorem test_premise_OtherAccessesRefused :
    ¬ ((16 : Nat) = 32 ∧ 0x08 % 4 = 0) ∧ ¬ ((32 : Nat) = 32 ∧ 0x02 % 4 = 0) ∧ ((32 : Nat) = 32 ∧ 0xFFFFFFFC % 4 = 0) := by decide
theorem test_premise_WaitPolls : (inFlight 0).busy = true ∧ State.reset.busy = false := ⟨rfl, rfl⟩
theorem test_premise_CommandDispatch_latched : (0x00000000 : Word) ≠ 0x00000003 ∧ latched.err ≠ 0 := by decide
theorem test_premise_CommandDispatch_busy : (0x0000000C : Word) ≠ 0x00000003 ∧ (inFlight 0).err = 0 ∧ (inFlight 0).busy = true := by
  decide
theorem test_premise_CommandDispatch_idle :
    legal 0x00000013 = false ∧ legal 0x00000000 = true ∧ legal 0x0000001B = true ∧ c13.err = 0 ∧ c13.busy = false := by decide
theorem test_premise_NopSetsDone_ready : State.reset.ready := ⟨rfl, rfl⟩
theorem test_premise_NopSetsDone_busy : (inFlight 63).err = 0 ∧ (inFlight 63).busy = true := ⟨rfl, rfl⟩
theorem test_premise_NopSetsDone_latched : latched.err ≠ 0 := by decide
theorem test_premise_DecodeCommandsLaunch : c13.ready := ⟨rfl, rfl⟩
theorem test_premise_Dxt5fIsDxt5 : x1.ready := ⟨rfl, rfl⟩
theorem test_premise_CommandsTurnedAway_latched : Instr.nop ≠ .srst ∧ latched.err ≠ 0 := by decide
theorem test_premise_CommandsTurnedAway_busy : Instr.dxt5f ≠ .srst ∧ (inFlight 0).err = 0 ∧ (inFlight 0).busy = true := by decide
theorem test_premise_CommandFrame :
    Instr.alpha 1 ≠ .srst ∧ c13.busy = false ∧ commandOp .nop = none ∧ (inFlight 0).busy = true ∧ latched.err ≠ 0 := by decide

/-- A host about to write `DXT1 1`. -/
def commanding : State := { x1 with script := [wr .cmd 0x0000001B, .wait] }

theorem test_premise_StepRunsTheCommand :
    commanding.nextAgent = .host ∧ commanding.script = wr .cmd 0x0000001B :: [.wait] ∧ decode 0x0000001B = .ok (.dxt1 1) :=
  ⟨rfl, rfl, rfl⟩
theorem test_premise_StepRunsTheCommand_table : decodeTableWord 32 0x0F = some .dxt5f := by decide
theorem test_premise_RaiseLatchesTheFirst : State.reset.err = 0 ∧ latched.err ≠ 0 := by decide
theorem test_premise_ErrorsAreSticky :
    latched.err ≠ 0 ∧ step latched = .next latched ∧ (0x0000000B : Word) ≠ 0x00000003 := ⟨by decide, rfl, by decide⟩
theorem test_premise_RespectfulHostNeverBusyCmd :
    commanding.hostRespects ∧ commanding.err ≠ 2 ∧ ∃ t, step commanding = .next t := by
  refine ⟨fun op h => ?_, by decide, _, rfl⟩
  cases h
  exact fun _ h => absurd h (by decide)
theorem test_premise_WritePrimitive : (bounded 0).isWritable 0x1007 = true ∧ (bounded 0).isWritable 0x1008 = false := by decide
theorem test_premise_WriteSequenceShape : (15 : Nat) < 16 ∧ Op.dxt1.lanes[3]? = some .a ∧ Op.alpha.lanes[0]? = some .a := by decide
theorem test_premise_EffectiveAddresses :
    (15 : Nat) < 16 ∧ engineTurn State.reset = .next State.reset ∧ Instr.nop ≠ .srst ∧ exec .nop latched = .next latched :=
  ⟨by decide, rfl, by decide, rfl⟩
theorem test_premise_EngineStepWrites_first :
    (inFlight 0).busy = true ∧ (inFlight 0).f.writeSeq[0]? = some (0x1000, 0xF8) ∧ (inFlight 0).isWritable 0x1000 = true := by
  decide
theorem test_premise_EngineStepWrites_last :
    (inFlight 63).busy = true ∧ (inFlight 63).isWritable 0x103F = true ∧
      (inFlight 63).f.writeSeq[63]? = some (0x103F, 0xFF) ∧ (inFlight 63).f.k + 1 = (inFlight 63).f.writeSeq.length := by decide
theorem test_premise_EngineStepWrites_idle : State.reset.busy = false := rfl
theorem test_premise_RefusedWriteAborts :
    (bounded 8).busy = true ∧ (bounded 8).f.writeSeq[8]? = some (0x1008, 0xA5) ∧ (bounded 8).isWritable 0x1008 = false := by decide
theorem test_premise_EngineStepWrites_refused :
    (bounded 63).busy = true ∧ (bounded 63).f.writeSeq[63]? = some (0x103F, 0xFF) ∧ (bounded 63).isWritable 0x103F = false := by
  decide

/-- A host about to write a byte of the pixel memory that holds another value. -/
def poking : State := { State.reset with mem := [(0x10, 0xEE)], script := [.memWrite 0x10 0x01] }

theorem test_premise_MemoryChangesOnlyByWrites_host :
    ∃ t, step poking = .next t ∧ t.readByte 0x10 ≠ poking.readByte 0x10 := ⟨_, rfl, by decide⟩
theorem test_premise_MemoryChangesOnlyByWrites_engine :
    ∃ t, step { inFlight 0 with mem := [(0x1000, 0xEE)] } = .next t ∧
      t.readByte 0x1000 ≠ ({ inFlight 0 with mem := [(0x1000, 0xEE)] } : State).readByte 0x1000 := ⟨_, rfl, by decide⟩
theorem test_premise_HostCannotReachInFlight : (inFlight 0).busy = true ∧ hostTurn (inFlight 0) = .next (inFlight 0) := ⟨rfl, rfl⟩
theorem test_premise_EngineIgnoresOperandRegisters : ∃ t, engineTurn (inFlight 0) = .next t := ⟨_, rfl⟩
theorem test_premise_ColourPalette :
    (color0 (block 0x20 0x00 0x1F 0x00)).toNat > (color1 (block 0x20 0x00 0x1F 0x00)).toNat ∧
      (color0 (block 0x34 0x12 0x34 0x12)).toNat ≤ (color1 (block 0x34 0x12 0x34 0x12)).toNat := by decide
theorem test_premise_ColourIndexBits : (15 : Nat) < 16 ∧ (#v[0, 0, 0, 0, 0, 0, 0, 0xC0] : Block8)[4 + 15 / 4]? = some 0xC0 := by
  decide
theorem test_premise_ColourLaws :
    color0 (block 1 2 3 4) = color1 (block 3 4 1 2) ∧ color1 (block 1 2 3 4) = color0 (block 3 4 1 2) ∧
      color0 (block 1 2 3 4) ≠ color1 (block 1 2 3 4) ∧ color0 (block 0x20 0 0x1F 0) = 0x0020 ∧
      color1 (block 0x20 0 0x1F 0) = 0x001F ∧ cidx (block 1 2 3 4) = cidx (block 5 6 7 8) := by decide
theorem test_premise_PaletteRanges :
    2 ≤ (7 : BitVec 3).toNat ∧ (alpha0 (block 255 0 0 0)).toNat > (alpha1 (block 255 0 0 0)).toNat ∧ (5 : BitVec 3).toNat ≤ 5 := by
  decide
theorem test_premise_AlphaPalette :
    (alpha0 (block 1 0 0 0)).toNat > (alpha1 (block 1 0 0 0)).toNat ∧ (alpha0 (block 7 7 0 0)).toNat ≤ (alpha1 (block 7 7 0 0)).toNat ∧
      2 ≤ (2 : BitVec 3).toNat := by decide
theorem test_premise_AlphaIndexBits : (15 : Nat) < 16 ∧ (block 1 2 3 4)[2]? = some 3 ∧ (block 1 2 3 4)[7]? = some 0 := by decide
theorem test_premise_AlphaLaws :
    (alpha0 (block 255 254 0 0)).toNat = (alpha1 (block 255 254 0 0)).toNat + 1 ∧ alpha0 (block 7 7 1 0) = alpha1 (block 7 7 0 0) ∧
      alpha0 (block 7 7 1 0) = alpha0 (block 7 7 0 0) ∧ 2 ≤ (2 : BitVec 3).toNat ∧ (2 : BitVec 3).toNat ≤ (7 : BitVec 3).toNat := by
  decide
theorem test_premise_LaneValues :
    (x1.operation .dxt1 0).op = .dxt1 ∧ (x1.operation .colorrgb 1).op = .colorrgb ∧ (x1.operation .alpha 0).op = .alpha ∧
      (x1.operation .dxt5 0).op = .dxt5 := ⟨rfl, rfl, rfl, rfl⟩
theorem test_premise_LaunchedOperationCompletes :
    (inFlight 0).sched = [] ∧ (inFlight 0).busy = true ∧ (inFlight 0).f.k = 0 ∧ (inFlight 0).canWriteAll (inFlight 0).f :=
  ⟨rfl, rfl, rfl, fun a _ => everywhere rfl a⟩
theorem test_premise_DecodeCommandsComplete :
    commandOp (.alpha 0) = some (.alpha, 0) ∧ c13.ready ∧ c13.canWriteAll (c13.operation .alpha 0) :=
  ⟨rfl, ⟨rfl, rfl⟩, fun a _ => everywhere rfl a⟩
theorem test_premise_LaterEntryWins :
    (c13.operation .dxt1 0).writeSeq[63]? = some (0x103F, 0xFF) ∧
      (c13.operation .dxt1 0).writeSeq.drop 64 = [] := by decide
theorem test_premise_RefusedOperationKeepsPrefix :
    (bounded 0).sched = [] ∧ (bounded 0).busy = true ∧ (bounded 0).f.k = 0 ∧
      (∀ w ∈ (bounded 0).f.writeSeq.take 8, (bounded 0).isWritable w.1 = true) ∧
      (bounded 0).f.writeSeq[8]? = some (0x1008, 0xA5) ∧ (bounded 0).isWritable 0x1008 = false :=
  ⟨rfl, rfl, rfl, List.all_eq_true.mp (by rfl), by rfl, by rfl⟩
theorem test_premise_inv_busy : (inFlight 0).Inv :=
  { memory := rfl
    errCode := by decide
    busyNotDone := fun _ => rfl
    busyErr := fun _ => .inl rfl
    doneErr := fun h => by cases h
    faddrZero := fun _ => rfl
    pending := fun _ => by rw [show (inFlight 0).f.writeSeq.length = 64 from rfl]; decide
    selZero := fun _ _ => rfl }
theorem test_premise_OperationEndsWithin64 : (inFlight 0).Inv ∧ (inFlight 0).busy = true := ⟨test_premise_inv_busy, rfl⟩
theorem test_premise_InterleavedOperation :
    (inFlight 0).Inv ∧ (inFlight 0).busy = true ∧ footprintIs [] (inFlight 0).f (inFlight 0).f.k (inFlight 0).mem ∧
      (inFlight 0).hostSpares ∧ ∃ t, step (inFlight 0) = .next t :=
  ⟨test_premise_inv_busy, rfl, fun _ _ => rfl, (fun _ h => by cases h), _, rfl⟩
theorem test_premise_Dxt5OrdersAgree :
    x1.ready ∧ x1.canWriteAll (x1.operation .dxt5 0) ∧ pixelsAligned (x1.operation .dxt5 0) :=
  ⟨⟨rfl, rfl⟩, fun a _ => everywhere rfl a, .inl (by decide)⟩
/-- The lane addresses of a block at 0x3000 with stride 17, as numbers. -/
theorem laneAddr_stride17 (i a : Nat) (hi : i < 16) (ha : a < 4) :
   ((0x3000 : Word) + BitVec.ofNat 32 (i / 4) * 17 + BitVec.ofNat 32 (i % 4 * 4) + BitVec.ofNat 32 a).toNat = 0x3000 + i / 4 * 17 + i % 4 * 4 + a := by
  simp only [BitVec.toNat_add, BitVec.toNat_mul, BitVec.toNat_ofNat]
  rw [Nat.mod_eq_of_lt (a := i / 4) (by omega), Nat.mod_eq_of_lt (a := i % 4 * 4) (by omega), Nat.mod_eq_of_lt (a := a) (by omega)]
  rw [show (12288 : Word).toNat = 12288 from rfl, show (17 : Word).toNat = 17 from rfl]
  omega
theorem test_premise_Dxt5OrdersAgree_disjoint :
    pixelsAligned { x1.operation .dxt5 0 with stride := 17 } := by
  refine .inr fun i hi j hj hij l m h => hij ?_
  have hl : l.index < 4 := by cases l <;> decide
  have hm : m.index < 4 := by cases m <;> decide
  have h := (laneAddr_stride17 i _ hi hl).symm.trans ((congrArg BitVec.toNat h).trans (laneAddr_stride17 j _ hj hm))
  clear hij
  omega
theorem test_premise_FourLaneColourOverwritesAlpha : x1.ready ∧ x1.canWriteAll (x1.operation .dxt1 1) :=
  ⟨⟨rfl, rfl⟩, fun a _ => everywhere rfl a⟩
theorem test_premise_ResultIgnoresOldContents :
    commandOp .dxt5f = some (.dxt5, 0) ∧ x1.ready ∧ x1.canWriteAll (x1.operation .dxt5 0) :=
  ⟨rfl, ⟨rfl, rfl⟩, fun a _ => everywhere rfl a⟩
theorem test_premise_ResetValues : exec .srst (inFlight 5) = .next (hardReset (inFlight 5)) := rfl
theorem test_premise_ResetStep : ({ inFlight 5 with sched := [.rst, .engine] } : State).sched = .rst :: [.engine] := rfl
theorem test_premise_StepKeepsInv : (inFlight 0).Inv ∧ ∃ t, step (inFlight 0) = .next t := ⟨test_premise_inv_busy, _, rfl⟩
theorem test_premise_InvNeverStops_refused :
    step { State.reset with script := [.regRead 8 0x04] } = .refused (.portAccess 8 0x04) := by rfl
theorem test_premise_ConvertDxt1Walk :
    [0, 0, 0].length < blocks 4 * blocks 4 * 8 ∧ blocks 4 * blocks 4 * 8 ≤ (List.replicate 8 (0x5A : Byte)).length ∧
      ∀ j < 8, (List.replicate 8 (0x5A : Byte))[(0 * blocks 4 + 0) * 8 + j]? = some 0x5A := by decide
theorem test_premise_ConvertDxt5Walk :
    [0, 0, 0].length < blocks 4 * blocks 4 * 16 ∧ blocks 4 * blocks 4 * 16 ≤ (List.replicate 16 (0x5A : Byte)).length ∧
      ∀ j < 16, (List.replicate 16 (0x5A : Byte))[(0 * blocks 4 + 0) * 16 + j]? = some 0x5A := by decide
theorem test_premise_ConversionExtent : 1 ≤ blocks 6 ∧ 1 ≤ blocks 4 ∧ 6 % 4 ≠ 0 ∧ 1 ≤ blocks 8 ∧ 8 % 4 = 0 := by decide

end Sys2Proof.Tests
end

section
/-! PROOFS. The engine and the host's side of the state (00_scope.md rules R16, R17; 10_state.md rule R36): the engine's turn
commutes with a replacement of everything the host owns, a host access to the pixel memory is one byte, and a host step
that writes a legal word to `CMD` is the command. -/
namespace Sys2Proof.Machine

/-! The host's side of the state: the operand registers, the host's remaining steps and what its reads returned. -/

/-- `s` with the operand registers, the script and the readings of `h`. -/
def State.withHostSide (s h : State) : State :=
  { s with
    dst := h.dst, stride := h.stride, blk0 := h.blk0, blk1 := h.blk1, blk2 := h.blk2, blk3 := h.blk3
    script := h.script, reads := h.reads }

@[simp] theorem State.withHostSide_isWritable (s h : State) (a : Word) :
    (s.withHostSide h).isWritable a = s.isWritable a := rfl

theorem State.storeByte_withHostSide (s h : State) (a : Word) (v : Byte) :
    (s.withHostSide h).storeByte a v = (s.storeByte a v).withHostSide h := rfl

/-- Advancing and completing read only the in-flight record. -/
theorem State.wrote_withHostSide (s h : State) : (s.withHostSide h).wrote = s.wrote.withHostSide h := by
  by_cases hk : s.f.k + 1 = s.f.writeSeq.length
  · rw [State.wrote_last hk, State.wrote_last (s := s.withHostSide h) hk]
    rfl
  · rw [State.wrote_pending hk, State.wrote_pending (s := s.withHostSide h) hk]
    rfl

/-- Latching an error reads only `ERR` and `FADDR`. -/
theorem State.raise_withHostSide (s h : State) (e : Err) (info : Word) :
    (s.withHostSide h).raise e info = (s.raise e info).withHostSide h := by
  by_cases he : s.err = 0
  · rw [State.raise_first he, State.raise_first (s := s.withHostSide h) he]
    rfl
  · rw [State.raise_later he, State.raise_later (s := s.withHostSide h) he]

theorem State.busError_withHostSide (s h : State) (a : Word) :
    (s.withHostSide h).busError a = (s.busError a).withHostSide h := by
  rw [State.busError, State.raise_withHostSide]
  rfl

theorem engineWrite_withHostSide (a : Word) (v : Byte) (s h : State) :
    engineWrite a v (s.withHostSide h) = (engineWrite a v s).withHostSide h := by
  cases hw : s.isWritable a
  · simp [engineWrite, State.memWrite_refused, hw, State.busError_withHostSide]
  · simp [engineWrite, State.memWrite_ok, hw, State.storeByte_withHostSide, State.wrote_withHostSide]

/-- The engine's turn commutes with the replacement of the host's side: its operands are the copy in the in-flight record. -/
theorem engineTurn_withHostSide {s t : State} (ht : engineTurn s = .next t) (h : State) :
    engineTurn (s.withHostSide h) = .next (t.withHostSide h) := by
  obtain ⟨hidle, rfl⟩ | ⟨hbusy, w, hw, rfl⟩ := engineTurn_cases ht
  · exact engineTurn_idle hidle
  · rw [engineTurn_busy (s := s.withHostSide h) hbusy hw, engineWrite_withHostSide]

/-- Settles O33: the replaced state is `s.withHostSide` of itself, and the engine's turn commutes with that. -/
theorem engineIgnoresOperandRegisters : Obligations.EngineIgnoresOperandRegisters := by
  intro s t d st b0 b1 b2 b3 script reads ht
  exact engineTurn_withHostSide ht { s with
    dst := d, stride := st, blk0 := b0, blk1 := b1, blk2 := b2, blk3 := b3, script := script, reads := reads }

/-! The host's accesses to the pixel memory. -/

theorem hostOp_memRead (s : State) (a : Word) :
    hostOp (.memRead a) s = .next (s.received (.mem a (s.readByte a))) := rfl

theorem hostOp_memWrite (s : State) (a : Word) (v : Byte) : hostOp (.memWrite a v) s = .next (s.storeByte a v) := rfl

theorem State.readByte_storeByte_same (s : State) (a : Word) (v : Byte) : (s.storeByte a v).readByte a = v := by
  rw [State.readByte_storeByte, if_pos rfl]

theorem State.readByte_storeByte_other (s : State) {a b : Word} (v : Byte) (h : b ≠ a) :
    (s.storeByte a v).readByte b = s.readByte b := by
  rw [State.readByte_storeByte, if_neg h]

/-- Settles O13: a read is `received`, a write is `storeByte`, whose only effect is its byte. -/
theorem hostMemoryAccesses : Obligations.HostMemoryAccesses := by
  intro s a v
  exact ⟨hostOp_memRead s a, s.storeByte a v, hostOp_memWrite s a v, rfl, s.readByte_storeByte_same a v,
    fun _ hb => s.readByte_storeByte_other v hb⟩

/-! The host's write of a command word. -/

theorem hostOp_writeCmd (w : Word) (s : State) : hostOp (wr .cmd w) s = cmdWrite w s := rfl

theorem cmdWrite_legal {w : Word} {i : Instr} (h : decode w = .ok i) (s : State) : cmdWrite w s = exec i s := by
  simp [cmdWrite, h]

theorem hostTurn_cons {s : State} {op : HostOp} {rest : List HostOp} (h : s.script = op :: rest) :
    hostTurn s = hostOp op (s.setScript rest) := by
  simp [hostTurn, h]

theorem step_host {s : State} (h : s.nextAgent = .host) : step s = hostTurn s.dropSched := by
  simp [step, h, agentTurn]

/-- A host step that writes a legal word to `CMD` is the command, with that host step and the schedule's choice used up. -/
theorem step_writeCmd {s : State} {w : Word} {rest : List HostOp} {i : Instr} (ha : s.nextAgent = .host)
    (hs : s.script = wr .cmd w :: rest) (hd : decode w = .ok i) : step s = exec i (s.dropSched.setScript rest) := by
  rw [step_host ha, hostTurn_cons (s := s.dropSched) hs, hostOp_writeCmd, cmdWrite_legal hd]

theorem decodeTableWord_eq_some {n w : Nat} {i : Instr} (h : decodeTableWord n w = some i) :
    decode (BitVec.ofNat 32 (w % 2 ^ n)) = .ok i := by
  unfold decodeTableWord at h
  cases hd : decode (BitVec.ofNat 32 (w % 2 ^ n)) with
  | ok j => rw [hd] at h; exact congrArg Except.ok (Option.some.inj h)
  | error r => rw [hd] at h; cases h

/-- Placing a command word puts the host's turn next. -/
theorem State.placeCommand_nextAgent (s : State) (w : Word) : (s.placeCommand w).nextAgent = .host := rfl

/-- The step that takes a placed command word off leaves the state it was placed in. -/
theorem State.placeCommand_taken (s : State) (w : Word) : (s.placeCommand w).dropSched.setScript s.script = s := rfl

/-- Settles O22: the first part is `step_writeCmd`, the second applies it to the placed word. -/
theorem stepRunsTheCommand : Obligations.StepRunsTheCommand := by
  refine ⟨fun s w rest i ha hs hd => step_writeCmd ha hs hd, fun s w i h => ?_⟩
  rw [State.withFetchWord, step_writeCmd (State.placeCommand_nextAgent s _) rfl (decodeTableWord_eq_some h),
    State.placeCommand_taken]

end Sys2Proof.Machine
end

section
/-! PROOFS. The register file and its port (10_state.md rules R20 to R32): where the block bytes and the fields of `STATUS`
lie, the two directions of the register map, and which register accesses are answered. -/
namespace Sys2Proof.Machine

/-! The block bytes (R22). -/

theorem State.blockBytes_getElem? (s : State) {j : Nat} (hj : j < 4) :
    s.blockBytes[j]? = some (regByte s.blk0 j) ∧ s.blockBytes[4 + j]? = some (regByte s.blk1 j) ∧
      s.blockBytes[8 + j]? = some (regByte s.blk2 j) ∧ s.blockBytes[12 + j]? = some (regByte s.blk3 j) := by
  match j, hj with
  | 0, _ | 1, _ | 2, _ | 3, _ => exact ⟨rfl, rfl, rfl, rfl⟩

/-- A byte joins the bits above it. -/
theorem extractLsb'_append_regByte (w : Word) (j n : Nat) :
    w.extractLsb' (8 * (j + 1)) n ++ regByte w j = w.extractLsb' (8 * j) (n + 8) :=
  BitVec.extractLsb'_append_extractLsb'_eq_extractLsb' rfl

/-- A word is put together again from its bytes, the highest first. -/
theorem le32_regByte (w : Word) : le32 (regByte w 0) (regByte w 1) (regByte w 2) (regByte w 3) = w := by
  rw [le32, show regByte w 3 = w.extractLsb' (8 * (2 + 1)) 8 from rfl, extractLsb'_append_regByte w 2,
    extractLsb'_append_regByte w 1, extractLsb'_append_regByte w 0]
  exact BitVec.extractLsb'_eq_self

/-- Settles O6: the bytes are read off the registers one by one, and joined again by `le32_regByte`. -/
theorem blockBytesInRegisters : Obligations.BlockBytesInRegisters :=
  ⟨fun s _ hj => s.blockBytes_getElem? hj, fun w => (le32_regByte w).symm⟩

/-! The fields of `STATUS` (R26): each is found by dropping the fields below it and cutting off the fields above it. -/

theorem State.statusWord_busy (s : State) : s.statusWord.extractLsb' 0 1 = BitVec.ofBool s.busy :=
  BitVec.extractLsb'_append_eq_right

theorem State.statusWord_done (s : State) : s.statusWord.extractLsb' 1 1 = BitVec.ofBool s.done := by
  rw [State.statusWord, BitVec.extractLsb'_append_eq_of_le (by decide)]
  exact BitVec.extractLsb'_append_eq_right

theorem State.statusWord_low_reserved (s : State) : s.statusWord.extractLsb' 2 2 = 0 := by
  rw [State.statusWord, BitVec.extractLsb'_append_eq_of_le (by decide), BitVec.extractLsb'_append_eq_of_le (by decide)]
  exact BitVec.extractLsb'_append_eq_right

theorem State.statusWord_err (s : State) : s.statusWord.extractLsb' 4 3 = s.err := by
  rw [State.statusWord, BitVec.extractLsb'_append_eq_of_le (by decide), BitVec.extractLsb'_append_eq_of_le (by decide),
    BitVec.extractLsb'_append_eq_of_le (by decide)]
  exact BitVec.extractLsb'_append_eq_right

theorem State.statusWord_high_reserved (s : State) : s.statusWord.extractLsb' 7 25 = 0 := by
  rw [State.statusWord, BitVec.extractLsb'_append_eq_of_le (by decide), BitVec.extractLsb'_append_eq_of_le (by decide),
    BitVec.extractLsb'_append_eq_of_le (by decide)]
  exact BitVec.extractLsb'_append_eq_left

/-- Settles O8: one lemma per field. -/
theorem statusWordFields : Obligations.StatusWordFields := fun s =>
  ⟨s.statusWord_busy, s.statusWord_done, s.statusWord_low_reserved, s.statusWord_err, s.statusWord_high_reserved⟩

/-! The register map (R21, R30). -/

theorem regAt_regOffset (r : Reg) : regAt (regOffset r) = some r := by
  cases r <;> rfl

theorem regOffset_of_regAt {off : Nat} {r : Reg} (h : regAt off = some r) : regOffset r = off := by
  unfold regAt at h
  split at h <;> cases h <;> rfl

/-- An offset that is no register's is reserved. -/
theorem regAt_reserved {off : Nat} (h : ∀ r : Reg, regOffset r ≠ off) : regAt off = none :=
  Option.eq_none_iff_forall_ne_some.mpr fun r hr => h r (regOffset_of_regAt hr)

theorem State.portValue_regOffset (s : State) (r : Reg) : s.portValue (regOffset r) = s.regValue r := by
  rw [State.portValue, regAt_regOffset]

theorem State.portValue_reserved (s : State) {off : Nat} (h : regAt off = none) : s.portValue off = 0 := by
  rw [State.portValue, h]

/-! The accesses the interface carries (R31). -/

theorem portAccessOk_iff {bits off : Nat} : portAccessOk bits off = true ↔ bits = 32 ∧ off % 4 = 0 := by
  simp [portAccessOk]

theorem portAccessOk_regOffset (r : Reg) : portAccessOk 32 (regOffset r) = true := by
  cases r <;> rfl

theorem hostOp_regRead {bits off : Nat} (h : portAccessOk bits off = true) (s : State) :
    hostOp (.regRead bits off) s = .next (s.received (.reg off (s.portValue off))) := if_pos h

theorem hostOp_regRead_refused {bits off : Nat} (h : ¬ portAccessOk bits off = true) (s : State) :
    hostOp (.regRead bits off) s = .refused (.portAccess bits off) := if_neg h

theorem hostOp_regWrite_refused {bits off : Nat} (h : ¬ portAccessOk bits off = true) (s : State) (v : Word) :
    hostOp (.regWrite bits off v) s = .refused (.portAccess bits off) := if_neg h

theorem hostOp_regWrite_reserved {bits off : Nat} (h : portAccessOk bits off = true) (hr : regAt off = none) (s : State)
    (v : Word) : hostOp (.regWrite bits off v) s = .next s := by
  simp [hostOp, portWrite, h, hr]

theorem cmdWrite_illegal {w : Word} {r : Illegal} (h : decode w = .error r) (s : State) :
    cmdWrite w s = .next (illegalCommand s) := by
  simp [cmdWrite, h]

/-- Every word written to `CMD` is answered, whatever the state: an illegal word does not stop the machine. -/
theorem cmdWrite_answers (w : Word) (s : State) : ∃ t, cmdWrite w s = .next t := by
  cases hd : decode w with
  | error r => exact ⟨_, cmdWrite_illegal hd s⟩
  | ok i =>
    rw [cmdWrite_legal hd]
    obtain ⟨-, h⟩ | ⟨-, h⟩ := exec_cases i s
    · exact ⟨_, h⟩
    · exact ⟨_, h⟩

/-- A register of the map is written by `setReg`, unless it is `CMD`, whose write is a command. -/
theorem hostOp_wr {r : Reg} (hr : r ≠ .cmd) (s : State) (v : Word) : hostOp (wr r v) s = .next (s.setReg r v) := by
  cases r with
  | cmd => exact absurd rfl hr
  | status | dst | stride | blk0 | blk1 | blk2 | blk3 | faddr => rfl

theorem hostOp_rd (r : Reg) (s : State) :
    hostOp (rd r) s = .next (s.received (.reg (regOffset r) (s.regValue r))) := by
  rw [rd, hostOp_regRead (portAccessOk_regOffset r), State.portValue_regOffset]

theorem hostOp_regWrite_answers {bits off : Nat} (h : portAccessOk bits off = true) (s : State) (v : Word) :
    ∃ t, hostOp (.regWrite bits off v) s = .next t := by
  cases hr : regAt off with
  | none => exact ⟨s, hostOp_regWrite_reserved h hr s v⟩
  | some r =>
    obtain ⟨rfl, -⟩ := portAccessOk_iff.mp h
    obtain rfl := regOffset_of_regAt hr
    by_cases hc : r = .cmd
    · subst hc
      exact cmdWrite_answers v s
    · exact ⟨_, hostOp_wr hc s v⟩

/-- A host step of the form the interface carries is answered. -/
theorem hostOp_answers {op : HostOp} (h : op.wellFormed = true) (s : State) : ∃ t, hostOp op s = .next t := by
  cases op with
  | regWrite bits off v => exact hostOp_regWrite_answers h s v
  | regRead bits off => exact ⟨_, hostOp_regRead h s⟩
  | memWrite a v => exact ⟨_, hostOp_memWrite s a v⟩
  | memRead a => exact ⟨_, hostOp_memRead s a⟩
  | wait => exact ⟨waitPoll s, rfl⟩

/-- Any other host step is a register access, refused by name. -/
theorem hostOp_refused {op : HostOp} (h : op.wellFormed = false) (s : State) :
    ∃ bits off, hostOp op s = .refused (.portAccess bits off) ∧ portAccessOk bits off = false := by
  cases op with
  | regWrite bits off v => exact ⟨bits, off, hostOp_regWrite_refused (Bool.not_eq_true _ ▸ h) s v, h⟩
  | regRead bits off => exact ⟨bits, off, hostOp_regRead_refused (Bool.not_eq_true _ ▸ h) s, h⟩
  | memWrite a v => cases h
  | memRead a => cases h
  | wait => cases h

/-- Settles O9: a read of a register of the map is `hostOp_rd`. -/
theorem registerReadsAnswer : Obligations.RegisterReadsAnswer := fun s =>
  ⟨hostOp_rd .cmd s, hostOp_rd .status s, hostOp_rd .dst s, hostOp_rd .stride s, hostOp_rd .blk0 s, hostOp_rd .blk1 s,
    hostOp_rd .blk2 s, hostOp_rd .blk3 s, hostOp_rd .faddr s⟩

/-- Settles O10: a write to a register of the map other than `CMD` is `hostOp_wr`. -/
theorem registerWritesTakeEffect : Obligations.RegisterWritesTakeEffect := fun s v =>
  ⟨hostOp_wr (by decide) s v, hostOp_wr (by decide) s v, hostOp_wr (by decide) s v, hostOp_wr (by decide) s v,
    hostOp_wr (by decide) s v, hostOp_wr (by decide) s v, hostOp_wr (by decide) s v, hostOp_wr (by decide) s v⟩

/-- Settles O11: the register map has no register at such an offset. -/
theorem reservedOffsets : Obligations.ReservedOffsets := by
  intro s off v hoff hr
  have hok : portAccessOk 32 off = true := portAccessOk_iff.mpr ⟨rfl, hoff⟩
  have hnone : regAt off = none := regAt_reserved hr
  refine ⟨?_, hostOp_regWrite_reserved hok hnone s v⟩
  rw [hostOp_regRead hok, State.portValue_reserved s hnone]
  rfl

/-- Settles O12: the two clauses are the two values of `portAccessOk`. -/
theorem otherAccessesRefused : Obligations.OtherAccessesRefused := by
  intro s bits off v
  rw [← portAccessOk_iff]
  exact ⟨fun h => ⟨hostOp_regRead_refused h s, hostOp_regWrite_refused h s v⟩,
    fun h => ⟨⟨_, hostOp_regRead h s⟩, hostOp_regWrite_answers h s v⟩⟩

end Sys2Proof.Machine
end

section
/-! PROOFS. What a step leaves alone: the pixel memory but for one named write (10_state.md rule R34), the writable addresses
(R7), and the in-flight record under the host (R36, R37). -/
namespace Sys2Proof.Machine

/-! The commands store nothing. -/

theorem State.command_mem {s : State} {g : State → State} (hg : (g s).mem = s.mem) : (s.command g).mem = s.mem := by
  obtain ⟨-, h⟩ | ⟨-, -, h⟩ | ⟨-, -, h⟩ := State.command_cases s g <;> simp [h, hg]

theorem State.command_writable {s : State} {g : State → State} (hg : (g s).writable = s.writable) :
    (s.command g).writable = s.writable := by
  obtain ⟨-, h⟩ | ⟨-, -, h⟩ | ⟨-, -, h⟩ := State.command_cases s g <;> simp [h, hg]

/-- While the block is busy a command other than `SRST` reaches no further than `ERR`. -/
theorem State.command_f_of_busy {s : State} (hb : s.busy = true) (g : State → State) : (s.command g).f = s.f := by
  obtain ⟨-, h⟩ | ⟨-, -, h⟩ | ⟨-, hidle, -⟩ := State.command_cases s g
  · rw [h]
  · rw [h]
  · rw [hb] at hidle; cases hidle

@[simp] theorem commandEffect_mem (i : Instr) (s : State) : (commandEffect i s).mem = s.mem := by
  cases i <;> rfl

@[simp] theorem commandEffect_writable (i : Instr) (s : State) : (commandEffect i s).writable = s.writable := by
  cases i <;> rfl

/-- The state a command leaves: `SRST` resets the registers, any other goes through the tests of rule R80. -/
theorem exec_next {i : Instr} {s t : State} (h : exec i s = .next t) :
    t = s.resetRegs ∨ t = s.command (commandEffect i) := by
  obtain ⟨-, he⟩ | ⟨-, he⟩ := exec_cases i s
  · exact .inl (Host.Outcome.next.inj (h.symm.trans he))
  · exact .inr (Host.Outcome.next.inj (h.symm.trans he))

theorem exec_memory {i : Instr} {s t : State} (h : exec i s = .next t) : t.mem = s.mem ∧ t.writable = s.writable := by
  obtain rfl | rfl := exec_next h
  · exact ⟨rfl, rfl⟩
  · exact ⟨State.command_mem (commandEffect_mem i s), State.command_writable (commandEffect_writable i s)⟩

theorem exec_f_of_busy {i : Instr} {s t : State} (hb : s.busy = true) (h : exec i s = .next t) : t.f = s.f := by
  obtain rfl | rfl := exec_next h
  · exact State.resetRegs_f s
  · exact State.command_f_of_busy hb _

theorem illegalCommand_memory (s : State) : (illegalCommand s).mem = s.mem ∧ (illegalCommand s).writable = s.writable :=
  ⟨State.command_mem (State.raise_mem s _ _), State.command_writable (State.raise_writable s _ _)⟩

/-! A host step changes the pixel memory only by its own byte write. -/

theorem hostOp_memory {op : HostOp} {s t : State} (h : hostOp op s = .next t) :
    t.writable = s.writable ∧ (t.mem = s.mem ∨ ∃ a v, op = .memWrite a v ∧ t.mem = (s.storeByte a v).mem) := by
  obtain rfl | ⟨r, rfl⟩ | ⟨r, v, rfl⟩ | ⟨a, v, rfl, rfl⟩ | ⟨-, rfl⟩ | ⟨-, -, -, -, -, ⟨i, -, he⟩ | ⟨-, rfl⟩⟩ := hostOp_cases h
  · exact ⟨rfl, .inl rfl⟩
  · exact ⟨rfl, .inl rfl⟩
  · exact ⟨State.setReg_writable s r v, .inl (State.setReg_mem s r v)⟩
  · exact ⟨rfl, .inr ⟨a, v, rfl, rfl⟩⟩
  · obtain ⟨-, -, -, -, -, hmem, hwr⟩ := waitPoll_fields s
    exact ⟨hwr, .inl hmem⟩
  · obtain ⟨hmem, hwr⟩ := exec_memory he
    exact ⟨hwr, .inl hmem⟩
  · obtain ⟨hmem, hwr⟩ := illegalCommand_memory s
    exact ⟨hwr, .inl hmem⟩

theorem hostTurn_memory {s t : State} (h : hostTurn s = .next t) :
    t.writable = s.writable ∧
      (t.mem = s.mem ∨ ∃ a v, s.script.head? = some (.memWrite a v) ∧ t.mem = (s.storeByte a v).mem) := by
  obtain ⟨-, rfl⟩ | ⟨op, rest, hs, hop⟩ := hostTurn_cases h
  · exact ⟨rfl, .inl rfl⟩
  · obtain ⟨hwr, hmem | ⟨a, v, rfl, hmem⟩⟩ := hostOp_memory hop
    · exact ⟨hwr, .inl hmem⟩
    · exact ⟨hwr, .inr ⟨a, v, by rw [hs, List.head?_cons], hmem⟩⟩

/-! The engine changes it only by the entry `F.k`, at a writable address. -/

theorem engineTurn_memory {s t : State} (h : engineTurn s = .next t) :
    t.writable = s.writable ∧
      (t.mem = s.mem ∨ ∃ a v, s.busy = true ∧ s.isWritable a = true ∧ s.f.writeSeq[s.f.k]? = some (a, v) ∧
        t.mem = (s.storeByte a v).mem) := by
  obtain ⟨-, rfl⟩ | ⟨hb, ⟨a, v⟩, hw, rfl⟩ := engineTurn_cases h
  · exact ⟨rfl, .inl rfl⟩
  · obtain ⟨ha, he⟩ | ⟨-, he⟩ := engineWrite_cases a v s
    · exact ⟨by simp [he], .inr ⟨a, v, hb, ha, hw, by simp [he]⟩⟩
    · exact ⟨by simp [he], .inl (by simp [he])⟩

/-! Reads of the memory after such a turn. -/

theorem State.readByte_congr {s t : State} (h : t.mem = s.mem) (a : Word) : t.readByte a = s.readByte a := by
  rw [State.readByte, State.readByte, h]

/-- A byte that differs after one store is the byte stored. -/
theorem State.stored_of_readByte_ne {s t : State} {a b : Word} {v : Byte} (h : t.mem = (s.storeByte a v).mem)
    (hne : t.readByte b ≠ s.readByte b) : b = a ∧ t.readByte b = v := by
  rw [State.readByte_congr h, State.readByte_storeByte] at hne ⊢
  split at hne
  · next hb => exact ⟨hb, if_pos hb⟩
  · exact absurd rfl hne

/-- Settles O31: by the turn of each agent, with `State.stored_of_readByte_ne` for its one store. -/
theorem memoryChangesOnlyByWrites : Obligations.MemoryChangesOnlyByWrites := by
  intro s t h
  obtain ⟨ha, ht⟩ | ⟨ha, ht⟩ | ⟨-, rfl⟩ := step_cases h
  case inl =>
    obtain ⟨hwr, hmem | ⟨a, v, hs, hmem⟩⟩ := hostTurn_memory ht
    · exact ⟨hwr, fun b hne => absurd (State.readByte_congr hmem b) hne⟩
    · refine ⟨hwr, fun b hne => .inr ⟨ha, ?_⟩⟩
      obtain ⟨rfl, hv⟩ := State.stored_of_readByte_ne hmem hne
      rw [hv]
      exact hs
  case inr.inl =>
    obtain ⟨hwr, hmem | ⟨a, v, hb, hwa, hk, hmem⟩⟩ := engineTurn_memory ht
    · exact ⟨hwr, fun b hne => absurd (State.readByte_congr hmem b) hne⟩
    · refine ⟨hwr, fun b hne => .inl ?_⟩
      obtain ⟨rfl, hv⟩ := State.stored_of_readByte_ne hmem hne
      rw [hv]
      exact ⟨ha, hb, hwa, hk⟩
  case inr.inr => exact ⟨rfl, fun b hne => absurd rfl hne⟩

/-! The host and the in-flight record. -/

theorem hostOp_f_of_busy {op : HostOp} {s t : State} (hb : s.busy = true) (h : hostOp op s = .next t) : t.f = s.f := by
  obtain rfl | ⟨r, rfl⟩ | ⟨r, v, rfl⟩ | ⟨a, v, -, rfl⟩ | ⟨-, rfl⟩ | ⟨-, -, -, -, -, ⟨i, -, he⟩ | ⟨-, rfl⟩⟩ := hostOp_cases h
  · rfl
  · rfl
  · exact State.setReg_f s r v
  · rfl
  · obtain ⟨-, -, -, -, hf, -⟩ := waitPoll_fields s
    exact hf
  · exact exec_f_of_busy hb he
  · exact State.command_f_of_busy hb _

theorem State.regValue_setInFlight (s : State) (g : InFlight) (r : Reg) :
    ({ s with f := g } : State).regValue r = s.regValue r := by
  cases r <;> rfl

/-- Settles O32: `hostOp_f_of_busy` for the writes; no register's value is read off the record. -/
theorem hostCannotReachInFlight : Obligations.HostCannotReachInFlight := by
  refine ⟨fun s t hb h => ?_, fun s g off => ?_⟩
  · obtain ⟨-, rfl⟩ | ⟨op, rest, -, hop⟩ := hostTurn_cases h
    · rfl
    · exact hostOp_f_of_busy (s := s.setScript rest) hb hop
  · cases hr : regAt off with
    | none => rw [State.portValue_reserved _ hr, State.portValue_reserved _ hr]
    | some r =>
      obtain rfl := regOffset_of_regAt hr
      rw [State.portValue_regOffset, State.portValue_regOffset, State.regValue_setInFlight]

end Sys2Proof.Machine
end

section
/-! PROOFS. Reset and the invariant (10_state.md rules R26, R27, R38; 60_exceptions.md rule R176; 70_reset_and_hazards.md rule
R213): it holds at power-on, every turn of every agent keeps it, and under it only a refused register access stops a step. -/
namespace Sys2Proof.Machine

/-! The values after reset (R38, R200). -/

/-- `STATUS` reads as 0 when each of its fields is 0. -/
theorem State.statusWord_eq_zero {s : State} (hbusy : s.busy = false) (hdone : s.done = false) (herr : s.err = 0) :
    s.statusWord = 0 := by
  rw [State.statusWord, hbusy, hdone, herr]
  rfl

/-- Settles O52: hardware reset and `SRST` are both `resetRegs`, after which the engine is idle. -/
theorem resetValues : Obligations.ResetValues := by
  refine ⟨fun s t h => ?_, fun w s h => ?_⟩
  · obtain rfl : t = s.resetRegs := h.elim id fun h => (Host.Outcome.next.inj h).symm
    exact ⟨rfl, rfl, rfl, State.statusWord_eq_zero rfl rfl rfl, rfl, rfl, rfl, rfl, rfl, rfl, rfl, rfl, engineTurn_idle rfl⟩
  · obtain ⟨w, rfl⟩ : ∃ w, s = State.powerOn w := h.elim (⟨_, ·⟩) (⟨_, ·⟩)
    exact ⟨rfl, rfl, rfl, State.statusWord_eq_zero rfl rfl rfl, rfl, rfl, rfl, rfl, rfl, rfl, rfl⟩

/-! The invariant of a state, by what the update touches. -/

/-- The invariant looks only at the memory, the flags, `ERR`, `FADDR` and the in-flight record. -/
theorem State.Inv.congr {s t : State} (h : s.Inv) (hmem : t.mem = s.mem) (hbusy : t.busy = s.busy) (hdone : t.done = s.done)
    (herr : t.err = s.err) (hfaddr : t.faddr = s.faddr) (hf : t.f = s.f) : t.Inv where
  memory := hmem ▸ h.memory
  errCode := herr ▸ h.errCode
  busyNotDone := hbusy ▸ hdone ▸ h.busyNotDone
  busyErr := hbusy ▸ herr ▸ h.busyErr
  doneErr := hdone ▸ herr ▸ h.doneErr
  faddrZero := herr ▸ hfaddr ▸ h.faddrZero
  pending := hbusy ▸ hf ▸ h.pending
  selZero := hbusy ▸ hf ▸ h.selZero

/-- An idle state without an error meets the invariant as soon as its memory is canonical and `FADDR` is 0. -/
theorem State.Inv.of_idle {s : State} (hmem : Memory.wf s.mem = true) (hbusy : s.busy = false) (herr : s.err = 0)
    (hfaddr : s.faddr = 0) : s.Inv where
  memory := hmem
  errCode := by simp [herr]
  busyNotDone := by simp [hbusy]
  busyErr := fun _ => .inl herr
  doneErr := fun _ => by simp [herr]
  faddrZero := fun _ => hfaddr
  pending := by simp [hbusy]
  selZero := by simp [hbusy]

theorem State.powerOn_inv (w : List Region) : (State.powerOn w).Inv := .of_idle rfl rfl rfl rfl

/-- Settles O54: `State.reset` is one of the states right after power-on. -/
theorem resetMeetsInv : Obligations.ResetMeetsInv := ⟨State.powerOn_inv _, State.powerOn_inv⟩

theorem State.Inv.resetRegs {s : State} (h : s.Inv) : s.resetRegs.Inv := .of_idle h.memory rfl rfl rfl

theorem State.Inv.storeByte {s : State} (h : s.Inv) (a : Word) (v : Byte) : (s.storeByte a v).Inv where
  memory := Memory.wf_write s.mem v a.isLt h.memory
  errCode := h.errCode
  busyNotDone := h.busyNotDone
  busyErr := h.busyErr
  doneErr := h.doneErr
  faddrZero := h.faddrZero
  pending := h.pending
  selZero := h.selZero

/-! Commands. -/

/-- While no error is latched `FADDR` is 0. -/
theorem State.Inv.faddr_of_no_error {s : State} (h : s.Inv) (he : s.err = 0) : s.faddr = 0 :=
  h.faddrZero (by simp [he])

/-- `BusyCmd` is latched beside an operation in flight, which goes on. -/
theorem State.Inv.busyCmd {s : State} (h : s.Inv) (he : s.err = 0) : ({ s with err := 2 } : State).Inv where
  memory := h.memory
  errCode := by simp
  busyNotDone := h.busyNotDone
  busyErr := fun _ => .inr rfl
  doneErr := fun _ => by simp
  faddrZero := fun _ => h.faddr_of_no_error he
  pending := h.pending
  selZero := h.selZero

theorem State.Inv.illOp {s : State} (h : s.Inv) (he : s.err = 0) (hb : s.busy = false) :
    ({ s with err := 1 } : State).Inv where
  memory := h.memory
  errCode := by simp
  busyNotDone := h.busyNotDone
  busyErr := by simp [hb]
  doneErr := fun _ => by simp
  faddrZero := fun _ => h.faddr_of_no_error he
  pending := h.pending
  selZero := h.selZero

/-- A launch leaves the whole write sequence pending; the half of a `DXT5` launch must be 0. -/
theorem State.Inv.launch {s : State} (h : s.Inv) (he : s.err = 0) {op : Op} {sel : BitVec 1} (hsel : op = .dxt5 → sel = 0) :
    (s.launch op sel).Inv where
  memory := h.memory
  errCode := h.errCode
  busyNotDone := fun _ => rfl
  busyErr := fun _ => .inl he
  doneErr := by simp
  faddrZero := h.faddrZero
  pending := fun _ => InFlight.writeSeq_pos _
  selZero := fun _ => hsel

theorem State.Inv.commandEffect {s : State} (h : s.Inv) (he : s.err = 0) (hb : s.busy = false) (i : Instr) :
    (Machine.commandEffect i s).Inv := by
  cases i with
  | nop => exact .of_idle h.memory hb he (h.faddr_of_no_error he)
  | srst => exact h.resetRegs
  | alpha sel => exact h.launch he (by simp)
  | colorrgb sel => exact h.launch he (by simp)
  | dxt1 sel => exact h.launch he (by simp)
  | dxt5 => exact h.launch he fun _ => rfl
  | dxt5f => exact h.launch he fun _ => rfl

/-- A command other than `SRST` keeps the invariant if its effect on an idle block without an error does. -/
theorem State.Inv.command {s : State} (h : s.Inv) {g : State → State}
    (hg : s.err = 0 → s.busy = false → (g s).Inv) : (s.command g).Inv := by
  obtain ⟨-, hc⟩ | ⟨he, -, hc⟩ | ⟨he, hb, hc⟩ := State.command_cases s g
  · rw [hc]; exact h
  · rw [hc]; exact h.busyCmd he
  · rw [hc]; exact hg he hb

theorem State.Inv.exec {i : Instr} {s t : State} (h : s.Inv) (hx : Machine.exec i s = .next t) : t.Inv := by
  obtain rfl | rfl := exec_next hx
  · exact h.resetRegs
  · exact h.command fun he hb => h.commandEffect he hb i

theorem State.Inv.illegalCommand {s : State} (h : s.Inv) : (Machine.illegalCommand s).Inv :=
  h.command fun he hb => by
    rw [State.raise_first he]
    exact h.illOp he hb

/-! The host's turn. -/

theorem State.Inv.hostOp {op : HostOp} {s t : State} (h : s.Inv) (ht : Machine.hostOp op s = .next t) : t.Inv := by
  obtain rfl | ⟨r, rfl⟩ | ⟨r, v, rfl⟩ | ⟨a, v, -, rfl⟩ | ⟨-, rfl⟩ | ⟨-, -, -, -, -, ⟨i, -, he⟩ | ⟨-, rfl⟩⟩ := hostOp_cases ht
  · exact h
  · exact h.congr rfl rfl rfl rfl rfl rfl
  · exact h.congr (by simp) (by simp) (by simp) (by simp) (by simp) (by simp)
  · exact h.storeByte a v
  · obtain ⟨hbusy, hdone, herr, hfaddr, hf, hmem, -⟩ := waitPoll_fields s
    exact h.congr hmem hbusy hdone herr hfaddr hf
  · exact h.exec he
  · exact h.illegalCommand

theorem State.Inv.hostTurn {s t : State} (h : s.Inv) (ht : Machine.hostTurn s = .next t) : t.Inv := by
  obtain ⟨-, rfl⟩ | ⟨op, rest, -, hop⟩ := hostTurn_cases ht
  · exact h
  · exact State.Inv.hostOp (s := s.setScript rest) (h.congr rfl rfl rfl rfl rfl rfl) hop

/-! The engine's turn. -/

/-- Completion: an operation that was running leaves `ERR` at 0 or 2, so `DONE` may be set beside it. -/
theorem State.Inv.complete {s : State} (h : s.Inv) (hb : s.busy = true) : s.advance.flagComplete.Inv where
  memory := h.memory
  errCode := h.errCode
  busyNotDone := by simp
  busyErr := by simp
  doneErr := fun _ => by
    obtain he | he := h.busyErr hb <;> simp [he]
  faddrZero := h.faddrZero
  pending := by simp
  selZero := by simp

/-- Before the last entry the next one is pending. -/
theorem State.Inv.advance {s : State} (h : s.Inv) (hk : s.f.k + 1 ≠ s.f.writeSeq.length) : s.advance.Inv where
  memory := h.memory
  errCode := h.errCode
  busyNotDone := h.busyNotDone
  busyErr := h.busyErr
  doneErr := h.doneErr
  faddrZero := h.faddrZero
  pending := fun hb => Nat.lt_of_le_of_ne (h.pending hb) hk
  selZero := h.selZero

theorem State.Inv.wrote {s : State} (h : s.Inv) (hb : s.busy = true) : s.wrote.Inv := by
  by_cases hk : s.f.k + 1 = s.f.writeSeq.length
  · rw [State.wrote_last hk]; exact h.complete hb
  · rw [State.wrote_pending hk]; exact h.advance hk

/-- A running operation had `DONE = 0`, so `Bus` may be latched when it is abandoned. -/
theorem State.Inv.busError {s : State} (h : s.Inv) (hb : s.busy = true) (a : Word) : (s.busError a).Inv := by
  have hdone : s.done = false := h.busyNotDone hb
  obtain he | he := h.busyErr hb
  case inl =>
    rw [State.busError, State.raise_first he]
    exact
      { memory := h.memory
        errCode := by simp [Err.code]
        busyNotDone := by simp
        busyErr := by simp
        doneErr := by simp [hdone]
        faddrZero := fun hne => absurd rfl hne
        pending := by simp
        selZero := by simp }
  case inr =>
    rw [State.busError, State.raise_later (by simp [he])]
    exact
      { memory := h.memory
        errCode := h.errCode
        busyNotDone := by simp
        busyErr := by simp
        doneErr := h.doneErr
        faddrZero := h.faddrZero
        pending := by simp
        selZero := by simp }

theorem State.Inv.engineTurn {s t : State} (h : s.Inv) (ht : Machine.engineTurn s = .next t) : t.Inv := by
  obtain ⟨-, rfl⟩ | ⟨hb, ⟨a, v⟩, -, rfl⟩ := engineTurn_cases ht
  · exact h
  · obtain ⟨-, he⟩ | ⟨-, he⟩ := engineWrite_cases a v s
    · rw [he]; exact (h.storeByte a v).wrote hb
    · rw [he]; exact h.busError hb a

/-! A step. -/

theorem State.Inv.dropSched {s : State} (h : s.Inv) : s.dropSched.Inv := h.congr rfl rfl rfl rfl rfl rfl

/-- Settles O55: each agent's turn keeps the invariant. -/
theorem stepKeepsInv : Obligations.StepKeepsInv := by
  intro s t h ht
  obtain ⟨-, ht⟩ | ⟨-, ht⟩ | ⟨-, rfl⟩ := step_cases ht
  · exact h.dropSched.hostTurn ht
  · exact h.dropSched.engineTurn ht
  · exact h.dropSched.resetRegs

/-- Under the invariant the engine's turn is answered: a busy state has an entry pending. -/
theorem State.Inv.engineTurn_answers {s : State} (h : s.Inv) : ∃ t, Machine.engineTurn s = .next t := by
  cases hb : s.busy
  · exact ⟨s, engineTurn_idle hb⟩
  · exact ⟨_, engineTurn_busy hb (List.getElem?_eq_getElem (h.pending hb))⟩

/-- The host's turn is answered, but for a register access outside the interface. -/
theorem hostTurn_answers (s : State) :
    (∃ t, hostTurn s = .next t) ∨
      ∃ bits off, hostTurn s = .refused (.portAccess bits off) ∧ portAccessOk bits off = false := by
  cases hs : s.script with
  | nil => exact .inl ⟨s, by simp [hostTurn, hs]⟩
  | cons op rest =>
    rw [hostTurn_cons hs]
    cases hw : op.wellFormed
    · exact .inr (hostOp_refused hw _)
    · exact .inl (hostOp_answers hw _)

/-- Settles O56: only the host's turn can stop, by `hostTurn_answers`. -/
theorem invNeverStops : Obligations.InvNeverStops := by
  intro s h
  cases ha : s.nextAgent with
  | rst => exact .inl ⟨s.dropSched.resetRegs, by simp [step, ha, agentTurn, hardReset]⟩
  | engine =>
    obtain ⟨t, ht⟩ := h.dropSched.engineTurn_answers
    exact .inl ⟨t, by simp [step, ha, agentTurn, ht]⟩
  | host =>
    rw [step_host ha]
    obtain hnext | ⟨bits, off, hr, hok⟩ := hostTurn_answers s.dropSched
    · exact .inl hnext
    · exact .inr ⟨bits, off, hr, rfl, hok⟩

end Sys2Proof.Machine
end

section
/-! PROOFS. The pixel memory and the write sequence (20_memory.md rules R56 to R60): where each entry stands in the sequence and
what its address is, what a byte write does, and which entry decides a byte that several entries write. -/
namespace Sys2Proof.Machine

/-! The places of the entries (R58). -/

/-- In a concatenation of `n` pieces of one length `c`, element `j` of piece `i` stands at `c * i + j`. -/
theorem getElem?_flatMap_range {α : Type} {g : Nat → List α} {c : Nat} (hc : ∀ i, (g i).length = c) {n i j : Nat}
    (hi : i < n) (hj : j < c) : ((List.range n).flatMap g)[c * i + j]? = (g i)[j]? := by
  induction n with
  | zero => exact absurd hi (Nat.not_lt_zero i)
  | succ n ih =>
    have hlen : ((List.range n).flatMap g).length = c * n := by simp [List.length_flatMap, hc, Nat.mul_comm]
    rw [List.range_succ, List.flatMap_append, List.flatMap_singleton]
    obtain hlt | rfl := Nat.lt_succ_iff_lt_or_eq.mp hi
    · have hpos : c * i + j < c * n :=
        calc c * i + j < c * (i + 1) := by rw [Nat.mul_succ]; omega
          _ ≤ c * n := Nat.mul_le_mul_left c hlt
      rw [List.getElem?_append_left (hlen ▸ hpos), ih hlt]
    · rw [List.getElem?_append_right (by omega), hlen, Nat.add_sub_cancel_left]

theorem InFlight.pixelWrites_getElem? (f : InFlight) (i : Nat) {j : Nat} {l : Lane} (h : f.op.lanes[j]? = some l) :
    (f.pixelWrites i)[j]? = some (f.laneAddr i l, f.value i l) := by
  rw [InFlight.pixelWrites, List.getElem?_map, h, Option.map_some]

/-- The entry of the `j`-th lane of pixel `i`. -/
theorem InFlight.writeSeq_getElem? (f : InFlight) {i j : Nat} {l : Lane} (hi : i < 16) (h : f.op.lanes[j]? = some l) :
    f.writeSeq[f.op.lanes.length * i + j]? = some (f.laneAddr i l, f.value i l) := by
  obtain ⟨hj, -⟩ := List.getElem?_eq_some_iff.mp h
  rw [InFlight.writeSeq, getElem?_flatMap_range f.pixelWrites_length hi hj, f.pixelWrites_getElem? i h]

/-- Settles O27: the length is `InFlight.writeSeq_length` for each operation, the entries are `InFlight.writeSeq_getElem?`. -/
theorem writeSequenceShape : Obligations.WriteSequenceShape := by
  refine ⟨rfl, rfl, rfl, rfl, fun f => ⟨?_, fun i j l hi h => f.writeSeq_getElem? hi h⟩⟩
  rw [InFlight.writeSeq_length]
  cases f.op with
  | alpha | colorrgb | dxt1 | dxt5 => rfl

/-! The addresses (R57). -/

theorem InFlight.base_toNat (f : InFlight) {i : Nat} (hi : i < 16) :
    (f.base i).toNat = (f.dst.toNat + i / 4 * f.stride.toNat + i % 4 * 4) % 2 ^ 32 := by
  have hrow : i / 4 % 2 ^ 32 = i / 4 := Nat.mod_eq_of_lt (by omega)
  simp only [InFlight.base, BitVec.toNat_add, BitVec.toNat_mul, BitVec.toNat_ofNat, hrow]
  omega

theorem InFlight.laneAddr_toNat (f : InFlight) {i : Nat} (hi : i < 16) (l : Lane) :
    (f.laneAddr i l).toNat = (f.dst.toNat + i / 4 * f.stride.toNat + i % 4 * 4 + l.index) % 2 ^ 32 := by
  rw [InFlight.laneAddr, BitVec.toNat_add, BitVec.toNat_ofNat, f.base_toNat hi, ← Nat.add_mod]

theorem engineWrite_operands (a : Word) (v : Byte) (s : State) :
    (engineWrite a v s).dst = s.dst ∧ (engineWrite a v s).stride = s.stride := by
  obtain ⟨-, h⟩ | ⟨-, h⟩ := engineWrite_cases a v s
  · simp [h]
  · simp [h]

theorem engineTurn_operands {s t : State} (h : engineTurn s = .next t) : t.dst = s.dst ∧ t.stride = s.stride := by
  obtain ⟨-, rfl⟩ | ⟨-, ⟨a, v⟩, -, rfl⟩ := engineTurn_cases h
  · exact ⟨rfl, rfl⟩
  · exact engineWrite_operands a v s

theorem commandEffect_operands {i : Instr} (hi : i ≠ .srst) (s : State) :
    (commandEffect i s).dst = s.dst ∧ (commandEffect i s).stride = s.stride := by
  cases i with
  | srst => exact absurd rfl hi
  | nop | alpha | colorrgb | dxt1 | dxt5 | dxt5f => exact ⟨rfl, rfl⟩

theorem exec_operands {i : Instr} (hi : i ≠ .srst) {s t : State} (h : exec i s = .next t) :
    t.dst = s.dst ∧ t.stride = s.stride := by
  obtain rfl : s.command (commandEffect i) = t := Host.Outcome.next.inj ((exec_command hi s).symm.trans h)
  obtain ⟨-, hc⟩ | ⟨-, -, hc⟩ | ⟨-, -, hc⟩ := State.command_cases s (commandEffect i)
  · rw [hc]; exact ⟨rfl, rfl⟩
  · rw [hc]; exact ⟨rfl, rfl⟩
  · rw [hc]; exact commandEffect_operands hi s

/-- Settles O28: the sums modulo 2^32, and `DST` and `STRIDE` kept by the engine's turn and by each command but `SRST`. -/
theorem effectiveAddresses : Obligations.EffectiveAddresses :=
  ⟨fun f _ l hi => ⟨f.base_toNat hi, f.laneAddr_toNat hi l⟩, fun _ _ h => engineTurn_operands h,
    fun _ _ _ hi h => exec_operands hi h⟩

/-! The write primitive (R56). -/

/-- Storing the byte an address already holds changes no read. -/
theorem State.readByte_storeByte_twice (s : State) (a b : Word) (v : Byte) :
    ((s.storeByte a v).storeByte a v).readByte b = (s.storeByte a v).readByte b := by
  by_cases hb : b = a
  · subst hb; rw [State.readByte_storeByte_same, State.readByte_storeByte_same]
  · rw [State.readByte_storeByte_other _ v hb]

/-- Settles O26: an accepted write is `storeByte`, which leaves the writable addresses alone, so that it can be repeated. -/
theorem writePrimitive : Obligations.WritePrimitive := by
  refine fun s a v => ⟨fun ha => ?_, fun ha => State.memWrite_refused ha v⟩
  have hagain : (s.storeByte a v).isWritable a = true := (State.isWritable_congr rfl a).trans ha
  exact ⟨s.storeByte a v, State.memWrite_ok ha v, rfl, s.readByte_storeByte_same a v,
    fun _ hb => s.readByte_storeByte_other v hb, _, State.memWrite_ok hagain v, fun b => s.readByte_storeByte_twice a b v⟩

/-! Entries that share an address (R60). -/

/-- After a list of writes a byte is the one of the last entry for its address. -/
theorem Memory.read_applyWrites_last (m : Memory) {ws : List (Word × Byte)} {n : Nat} {a : Word} {v : Byte}
    (h : ws[n]? = some (a, v)) (hlast : ∀ w ∈ ws.drop (n + 1), w.1 ≠ a) :
    Memory.read (Memory.applyWrites m ws) a.toNat = v :=
  calc Memory.read (Memory.applyWrites m ws) a.toNat
      = Memory.read (Memory.applyWrites (Memory.applyWrites m (ws.take (n + 1))) (ws.drop (n + 1))) a.toNat := by
        rw [← Memory.applyWrites_append, List.take_append_drop]
    _ = Memory.read (Memory.applyWrites m (ws.take (n + 1))) a.toNat := Memory.read_applyWrites_other _ _ hlast
    _ = v := by rw [Memory.applyWrites_take_succ m h, Memory.read_write, if_pos rfl]

/-- Settles O45: `Memory.read_applyWrites_last` for the write sequence. -/
theorem laterEntryWins : Obligations.LaterEntryWins := fun _ m _ _ _ h hlast =>
  Memory.read_applyWrites_last m h hlast

end Sys2Proof.Machine
end

section
/-! PROOFS. The engine through an operation (20_memory.md rules R59, R62, R65, R66, R71, R72): one step for each entry, a whole
operation alone, and under every schedule beside a host that spares the footprint. -/
namespace Sys2Proof.Machine

/-! One entry. -/

/-- The engine's turn at an entry the memory accepts. -/
theorem engineTurn_accepted {s : State} {a : Word} {v : Byte} (hb : s.busy = true) (hw : s.f.writeSeq[s.f.k]? = some (a, v))
    (ha : s.isWritable a = true) : engineTurn s = .next (s.storeByte a v).wrote := by
  rw [engineTurn_busy hb hw, engineWrite, State.memWrite_ok ha]

theorem engineTurn_refused {s : State} {a : Word} {v : Byte} (hb : s.busy = true) (hw : s.f.writeSeq[s.f.k]? = some (a, v))
    (ha : s.isWritable a = false) : engineTurn s = .next (s.busError a) := by
  rw [engineTurn_busy hb hw, engineWrite, State.memWrite_refused ha]

/-- Settles O29: the accepted entry is the last one or not; the refused entry and the idle engine are one lemma each. -/
theorem engineStepWrites : Obligations.EngineStepWrites := by
  refine ⟨fun s a v hb hw ha => ?_, fun s a v hb hw ha => engineTurn_refused hb hw ha, fun s hb => engineTurn_idle hb⟩
  rw [engineTurn_accepted hb hw ha]
  by_cases hk : s.f.k + 1 = s.f.writeSeq.length
  · rw [if_pos hk, State.wrote_last (s := s.storeByte a v) hk]
    rfl
  · rw [if_neg hk, State.wrote_pending (s := s.storeByte a v) hk]
    rfl

/-! A whole operation, the engine alone. -/

/-- `s` with the first `n` entries of its write sequence in the memory and `F.k = n`. -/
def State.performed (s : State) (n : Nat) : State :=
  { s with mem := Memory.applyWrites s.mem (s.f.writeSeq.take n), f := { s.f with k := n } }

/-- Right after launch no entry is performed. -/
theorem State.performed_zero {s : State} (hk : s.f.k = 0) : s.performed 0 = s := by
  have hf : { s.f with k := 0 } = s.f := by rw [← hk]
  rw [State.performed, hf]
  rfl

/-- One more entry performed. -/
theorem State.performed_succ {s : State} {n : Nat} {a : Word} {v : Byte} (hw : s.f.writeSeq[n]? = some (a, v)) :
    ((s.performed n).storeByte a v).advance = s.performed (n + 1) := by
  rw [State.performed, State.performed, Memory.applyWrites_take_succ s.mem hw]
  rfl

theorem engineTurn_performed_pending {s : State} {n : Nat} {a : Word} {v : Byte} (hb : s.busy = true)
    (hw : s.f.writeSeq[n]? = some (a, v)) (ha : s.isWritable a = true) (hn : n + 1 ≠ s.f.writeSeq.length) :
    engineTurn (s.performed n) = .next (s.performed (n + 1)) := by
  rw [engineTurn_accepted (s := s.performed n) hb hw ha, State.wrote_pending hn, State.performed_succ hw]

theorem engineTurn_performed_last {s : State} {n : Nat} {a : Word} {v : Byte} (hb : s.busy = true)
    (hw : s.f.writeSeq[n]? = some (a, v)) (ha : s.isWritable a = true) (hn : n + 1 = s.f.writeSeq.length) :
    engineTurn (s.performed n) = .next (s.performed (n + 1)).flagComplete := by
  rw [engineTurn_accepted (s := s.performed n) hb hw ha, State.wrote_last hn, State.performed_succ hw]

/-- As long as an entry stays pending, `n` engine steps from launch perform the first `n` entries. -/
theorem engineRun_performed {s : State} (hb : s.busy = true) (hk : s.f.k = 0) {n : Nat} (hn : n < s.f.writeSeq.length)
    (hwr : ∀ w ∈ s.f.writeSeq.take n, s.isWritable w.1 = true) : engineRun n s = .next (s.performed n) := by
  induction n with
  | zero => rw [State.performed_zero hk]; rfl
  | succ n ih =>
    have hw : s.f.writeSeq[n]? = some s.f.writeSeq[n] := List.getElem?_eq_getElem (Nat.lt_of_succ_lt hn)
    have hmem : s.f.writeSeq[n] ∈ s.f.writeSeq.take (n + 1) :=
      List.mem_of_getElem? ((List.getElem?_take_of_lt n.lt_succ_self).trans hw)
    have ha : s.isWritable s.f.writeSeq[n].1 = true := hwr _ hmem
    have hfirst := ih (Nat.lt_of_succ_lt hn) fun w h => hwr w ((List.take_sublist_take_left n.le_succ).subset h)
    rw [engineRun_add hfirst, engineRun_succ (engineTurn_performed_pending hb hw ha (Nat.ne_of_lt hn))]
    rfl

theorem engineWrite_sched (a : Word) (v : Byte) (s : State) : (engineWrite a v s).sched = s.sched := by
  obtain ⟨-, h⟩ | ⟨-, h⟩ := engineWrite_cases a v s
  · simp [h]
  · simp [h]

/-- With the schedule empty a busy machine moves its engine: `n` engine steps up to a busy state are `n` steps of the machine. -/
theorem runSteps_of_engineRun {n : Nat} {s t : State} (hs : s.sched = []) (h : engineRun n s = .next t)
    (ht : t.busy = true) : runSteps n s = .next t := by
  induction n generalizing s with
  | zero => exact h
  | succ n ih =>
    cases hb : s.busy with
    | false =>
      obtain rfl : s = t := Host.Outcome.next.inj ((engineRun_idle (n + 1) hb).symm.trans h)
      rw [hb] at ht
      cases ht
    | true =>
      simp only [engineRun] at h
      split at h
      · next u hu =>
        obtain ⟨hidle, -⟩ | ⟨-, w, -, rfl⟩ := engineTurn_cases hu
        · rw [hb] at hidle; cases hidle
        · rw [runSteps_succ ((step_busy hb hs).trans hu)]
          exact ih ((engineWrite_sched w.1 w.2 s).trans hs) h
      · cases h
      · cases h

/-- From launch, the entries before entry `n` and then the engine's turn at it. -/
theorem runSteps_performed_succ {s t : State} (hs : s.sched = []) (hb : s.busy = true) (hk : s.f.k = 0) {n : Nat}
    (hn : n < s.f.writeSeq.length) (hwr : ∀ w ∈ s.f.writeSeq.take n, s.isWritable w.1 = true)
    (ht : engineTurn (s.performed n) = .next t) : runSteps (n + 1) s = .next t := by
  have hfirst : runSteps n s = .next (s.performed n) := runSteps_of_engineRun hs (engineRun_performed hb hk hn hwr) hb
  rw [runSteps_add hfirst, runSteps_succ ((step_busy (s := s.performed n) hb hs).trans ht)]
  rfl

theorem State.canWriteAll.isWritable {s : State} {f : InFlight} (h : s.canWriteAll f) {w : Word × Byte}
    (hw : w ∈ f.writeSeq) : s.isWritable w.1 = true := h _ (List.mem_map_of_mem hw)

/-- Outside the footprint a whole write sequence changes no byte. -/
theorem Memory.read_applyWrites_writeSeq_other (m : Memory) {f : InFlight} {a : Word} (h : a ∉ f.footprint) :
    Memory.read (Memory.applyWrites m f.writeSeq) a.toNat = Memory.read m a.toNat :=
  Memory.read_applyWrites_other m f.writeSeq fun _ hw e => h (e ▸ List.mem_map_of_mem hw)

/-- Settles O43: all entries but the last by `engineRun_performed`, and the step of the last one completes the operation. -/
theorem launchedOperationCompletes : Obligations.LaunchedOperationCompletes := by
  intro s hs hb hk hwr
  obtain ⟨n, hn⟩ : ∃ n, n + 1 = s.f.writeSeq.length := ⟨_, Nat.sub_add_cancel s.f.writeSeq_pos⟩
  have hlt : n < s.f.writeSeq.length := hn ▸ n.lt_succ_self
  have hlast : engineTurn (s.performed n) = .next (s.performed (n + 1)).flagComplete :=
    engineTurn_performed_last hb (List.getElem?_eq_getElem hlt) (hwr.isWritable (List.getElem_mem hlt)) hn
  have hrun : runSteps (n + 1) s = .next (s.performed (n + 1)).flagComplete :=
    runSteps_performed_succ hs hb hk hlt (fun w hw => hwr.isWritable (List.mem_of_mem_take hw)) hlast
  rw [hn] at hrun
  have hall : (s.performed s.f.writeSeq.length).mem = Memory.applyWrites s.mem s.f.writeSeq := by
    rw [State.performed, List.take_length]
  refine ⟨_, hrun, ?_, fun a ha => ?_⟩
  · rw [← hall]
    rfl
  · rw [State.readByte, State.flagComplete_mem, hall]
    exact Memory.read_applyWrites_writeSeq_other s.mem ha

/-! An operation under every schedule. -/

/-- What `Obligations.InterleavedOperation` says of the state `t` after a step in which `f` was in flight. -/
def State.carriesOn (m : Memory) (f : InFlight) (t : State) : Prop :=
  (t.busy = true → t.f = { f with k := t.f.k } ∧ footprintIs m t.f t.f.k t.mem) ∧
    (t.done = true → footprintIs m f f.writeSeq.length t.mem)

/-- An abandoned operation leaves nothing to show. -/
theorem State.carriesOn_of_abandoned (m : Memory) (f : InFlight) {t : State} (hb : t.busy = false) (hd : t.done = false) :
    t.carriesOn m f := by
  simp [State.carriesOn, hb, hd]

/-- The operation stands where it stood. -/
theorem State.carriesOn_of_same {m : Memory} {f : InFlight} {t : State} (hf : t.f = f) (hd : t.done = false)
    (h : footprintIs m f f.k t.mem) : t.carriesOn m f := by
  subst hf
  exact ⟨fun _ => ⟨rfl, h⟩, by simp [hd]⟩

/-- A write outside the footprint leaves the footprint as it is. -/
theorem footprintIs_write_other {m now : Memory} {f : InFlight} {n : Nat} (h : footprintIs m f n now) {a : Word} (v : Byte)
    (ha : a ∉ f.footprint) : footprintIs m f n (Memory.write now a.toNat v) := by
  intro b hb
  have hne : b.toNat ≠ a.toNat := fun e => ha (BitVec.eq_of_toNat_eq e ▸ hb)
  rw [Memory.read_write, if_neg hne, h b hb]

/-- Entry `n` takes the footprint from its first `n` entries to its first `n + 1`. -/
theorem footprintIs_write_next {m now : Memory} {f : InFlight} {n : Nat} (h : footprintIs m f n now) {a : Word} {v : Byte}
    (hw : f.writeSeq[n]? = some (a, v)) : footprintIs m f (n + 1) (Memory.write now a.toNat v) := by
  intro b hb
  rw [Memory.applyWrites_take_succ m hw, Memory.read_write, Memory.read_write, h b hb]

/-! The host's turn. -/

/-- While the block is busy a command other than `SRST` does not touch `DONE`. -/
theorem State.command_done_of_busy {s : State} (hb : s.busy = true) (g : State → State) :
    (s.command g).done = s.done := by
  obtain ⟨-, h⟩ | ⟨-, -, h⟩ | ⟨-, hidle, -⟩ := State.command_cases s g
  · rw [h]
  · rw [h]
  · rw [hb] at hidle; cases hidle

/-- No host step completes an operation in flight. -/
theorem hostOp_done_of_busy {op : HostOp} {s t : State} (hb : s.busy = true) (hd : s.done = false)
    (h : hostOp op s = .next t) : t.done = false := by
  obtain rfl | ⟨r, rfl⟩ | ⟨r, v, rfl⟩ | ⟨a, v, -, rfl⟩ | ⟨-, rfl⟩ | ⟨-, -, -, -, -, ⟨i, -, he⟩ | ⟨-, rfl⟩⟩ := hostOp_cases h
  · exact hd
  · exact hd
  · exact (State.setReg_done s r v).trans hd
  · exact hd
  · obtain ⟨-, hdone, -⟩ := waitPoll_fields s
    exact hdone.trans hd
  · obtain rfl | rfl := exec_next he
    · rfl
    · exact (State.command_done_of_busy hb _).trans hd
  · exact (State.command_done_of_busy hb _).trans hd

theorem hostTurn_done_of_busy {s t : State} (hb : s.busy = true) (hd : s.done = false) (h : hostTurn s = .next t) :
    t.done = false := by
  obtain ⟨-, rfl⟩ | ⟨op, rest, -, hop⟩ := hostTurn_cases h
  · exact hd
  · exact hostOp_done_of_busy (s := s.setScript rest) hb hd hop

/-- The host's turn leaves the operation where it stood: its one store spares the footprint. -/
theorem hostTurn_carriesOn {m : Memory} {s t : State} (hb : s.busy = true) (hd : s.done = false)
    (hfp : footprintIs m s.f s.f.k s.mem) (hsp : s.hostSpares) (h : hostTurn s = .next t) : t.carriesOn m s.f := by
  refine State.carriesOn_of_same (hostCannotReachInFlight.1 s t hb h) (hostTurn_done_of_busy hb hd h) ?_
  obtain ⟨-, hmem | ⟨a, v, hop, hmem⟩⟩ := hostTurn_memory h
  · rw [hmem]
    exact hfp
  · rw [hmem, State.storeByte_mem]
    exact footprintIs_write_other hfp v (hsp _ hop)

/-! The engine's turn. -/

/-- An accepted entry `F.k` is one more entry on the footprint; `DONE` is set by the last one only. -/
theorem wrote_carriesOn {m : Memory} {s : State} {a : Word} {v : Byte} (hd : s.done = false)
    (hfp : footprintIs m s.f s.f.k s.mem) (hw : s.f.writeSeq[s.f.k]? = some (a, v)) :
    (s.storeByte a v).wrote.carriesOn m s.f := by
  have hnext : footprintIs m s.f (s.f.k + 1) (s.storeByte a v).mem := footprintIs_write_next hfp hw
  by_cases hk : s.f.k + 1 = s.f.writeSeq.length
  · rw [State.wrote_last (s := s.storeByte a v) hk]
    exact ⟨by simp, fun _ => hk ▸ hnext⟩
  · rw [State.wrote_pending (s := s.storeByte a v) hk]
    exact ⟨fun _ => ⟨rfl, hnext⟩, by simp [hd]⟩

theorem engineTurn_carriesOn {m : Memory} {s t : State} (hb : s.busy = true) (hd : s.done = false)
    (hfp : footprintIs m s.f s.f.k s.mem) (h : engineTurn s = .next t) : t.carriesOn m s.f := by
  obtain ⟨hidle, -⟩ | ⟨-, ⟨a, v⟩, hw, rfl⟩ := engineTurn_cases h
  · rw [hb] at hidle; cases hidle
  · obtain ⟨-, he⟩ | ⟨-, he⟩ := engineWrite_cases a v s
    · rw [he]
      exact wrote_carriesOn hd hfp hw
    · rw [he]
      exact State.carriesOn_of_abandoned m s.f (State.busError_busy s a) ((State.busError_done s a).trans hd)

/-- Settles O48: the host leaves the operation where it stood, the engine takes it one entry on, a reset abandons it. -/
theorem interleavedOperation : Obligations.InterleavedOperation := by
  intro m s t hinv hb hfp hsp h
  have hd : s.done = false := hinv.busyNotDone hb
  obtain ⟨-, ht⟩ | ⟨-, ht⟩ | ⟨-, rfl⟩ := step_cases h
  · exact hostTurn_carriesOn (s := s.dropSched) hb hd hfp hsp ht
  · exact engineTurn_carriesOn (s := s.dropSched) hb hd hfp ht
  · exact State.carriesOn_of_abandoned m s.f rfl rfl

end Sys2Proof.Machine
end

section
/-! PROOFS. Decoding and encoding of command words (30_encoding.md rules R81 to R85): a word is its three fields, `decode` is the
inverse of `encode`, and legality, the ten listed words and the opcode table agree. -/
namespace Sys2Proof.Machine

/-! The three fields of a word (R81). -/

/-- A word is put together again from its fields. -/
theorem fields_append (w : Word) : rsvField w ++ selField w ++ opField w = w := by
  have h : rsvField w ++ selField w = w.extractLsb' 4 28 := BitVec.extractLsb'_append_extractLsb'_eq_extractLsb' rfl
  have h' : w.extractLsb' 4 28 ++ opField w = w.extractLsb' 0 32 := BitVec.extractLsb'_append_extractLsb'_eq_extractLsb' rfl
  rw [h, h']
  exact BitVec.extractLsb'_eq_self

@[simp] theorem opField_encode (i : Instr) : opField (encode i) = i.opcode :=
  BitVec.extractLsb'_append_eq_right

@[simp] theorem selField_encode (i : Instr) : selField (encode i) = i.selBit := by
  rw [selField, encode, BitVec.extractLsb'_append_eq_of_le (by decide)]
  exact BitVec.extractLsb'_append_eq_right

@[simp] theorem rsvField_encode (i : Instr) : rsvField (encode i) = 0 := by
  rw [rsvField, encode, BitVec.extractLsb'_append_eq_of_le (by decide)]
  exact BitVec.extractLsb'_append_eq_left

/-- A word is a command's exactly when its fields are the command's. -/
theorem eq_encode_iff {w : Word} {i : Instr} :
    w = encode i ↔ rsvField w = 0 ∧ selField w = i.selBit ∧ opField w = i.opcode := by
  refine ⟨?_, fun ⟨hrsv, hsel, hop⟩ => ?_⟩
  · rintro rfl
    exact ⟨rsvField_encode i, selField_encode i, opField_encode i⟩
  · rw [← fields_append w, hrsv, hsel, hop]
    rfl

/-! `decode` and `encode` (R82, R83, R84). -/

theorem decodeOp_opcode_selBit (i : Instr) : decodeOp i.opcode i.selBit = .ok i := by
  cases i <;> rfl

theorem eq_of_withoutSel_ok {sel : BitVec 1} {i j : Instr} (h : withoutSel sel j = .ok i) : sel = 0 ∧ j = i := by
  unfold withoutSel at h
  split at h
  · next hsel => exact ⟨hsel, Except.ok.inj h⟩
  · cases h

/-- The fields of a word that `decodeOp` takes for a command are the command's. -/
theorem eq_fields_of_decodeOp {op : BitVec 4} {sel : BitVec 1} {i : Instr} (h : decodeOp op sel = .ok i) :
    sel = i.selBit ∧ op = i.opcode := by
  unfold decodeOp at h
  split at h
  case h_1 hop | h_4 hop | h_6 hop | h_7 hop =>
    obtain ⟨rfl, rfl⟩ := eq_of_withoutSel_ok h
    exact ⟨rfl, BitVec.eq_of_toNat_eq hop⟩
  case h_2 hop | h_3 hop | h_5 hop =>
    obtain rfl := Except.ok.inj h
    exact ⟨rfl, BitVec.eq_of_toNat_eq hop⟩
  case h_8 => cases h

theorem decode_of_rsv_ne_zero {w : Word} (h : rsvField w ≠ 0) : decode w = .error .rsvNonZero := if_neg h

theorem decode_of_rsv_zero {w : Word} (h : rsvField w = 0) : decode w = decodeOp (opField w) (selField w) := if_pos h

@[simp] theorem decode_encode (i : Instr) : decode (encode i) = .ok i := by
  rw [decode_of_rsv_zero (rsvField_encode i), opField_encode, selField_encode, decodeOp_opcode_selBit]

theorem eq_encode_of_decode {w : Word} {i : Instr} (h : decode w = .ok i) : w = encode i := by
  by_cases hrsv : rsvField w = 0
  · rw [decode_of_rsv_zero hrsv] at h
    exact eq_encode_iff.mpr ⟨hrsv, eq_fields_of_decodeOp h⟩
  · rw [decode_of_rsv_ne_zero hrsv] at h
    cases h

/-- Settles O1: `decode` undoes `encode`, and the fields of a word that decodes determine the word. -/
theorem decodeEncodeAgree : Obligations.DecodeEncodeAgree :=
  fun _ i => ⟨eq_encode_of_decode, fun h => h ▸ decode_encode i⟩

/-! The legal words (R84, R85). -/

theorem legal_encode (i : Instr) : legal (encode i) = true := by
  cases i with
  | nop => exact Laws.EncodeLegal.nop.2
  | alpha sel => exact (Laws.EncodeLegal.alpha sel).2
  | colorrgb sel => exact (Laws.EncodeLegal.colorrgb sel).2
  | srst => exact Laws.EncodeLegal.srst.2
  | dxt1 sel => exact (Laws.EncodeLegal.dxt1 sel).2
  | dxt5 => exact Laws.EncodeLegal.dxt5.2
  | dxt5f => exact Laws.EncodeLegal.dxt5f.2

/-- The tests of `Legal(w)`, in the order of rule R85. -/
theorem legal_fields {w : Word} (h : legal w = true) :
    rsvField w = 0 ∧ ((opField w = 0x1 ∨ opField w = 0x2 ∨ opField w = 0xB) ∨
      ((opField w = 0x0 ∨ opField w = 0x3 ∨ opField w = 0xE ∨ opField w = 0xF) ∧ selField w = 0)) := by
  simpa only [legal, Bool.and_eq_true, Bool.or_eq_true, beq_iff_eq, or_assoc, rsvField, opField, selField] using h

theorem exists_encode_of_legal {w : Word} (h : legal w = true) : ∃ i, w = encode i := by
  obtain ⟨hrsv, (hop | hop | hop) | ⟨hop | hop | hop | hop, hsel⟩⟩ := legal_fields h
  · exact ⟨.alpha (selField w), eq_encode_iff.mpr ⟨hrsv, rfl, hop⟩⟩
  · exact ⟨.colorrgb (selField w), eq_encode_iff.mpr ⟨hrsv, rfl, hop⟩⟩
  · exact ⟨.dxt1 (selField w), eq_encode_iff.mpr ⟨hrsv, rfl, hop⟩⟩
  · exact ⟨.nop, eq_encode_iff.mpr ⟨hrsv, hsel, hop⟩⟩
  · exact ⟨.srst, eq_encode_iff.mpr ⟨hrsv, hsel, hop⟩⟩
  · exact ⟨.dxt5, eq_encode_iff.mpr ⟨hrsv, hsel, hop⟩⟩
  · exact ⟨.dxt5f, eq_encode_iff.mpr ⟨hrsv, hsel, hop⟩⟩

theorem legal_iff_encode {w : Word} : legal w = true ↔ ∃ i, w = encode i :=
  ⟨exists_encode_of_legal, fun ⟨i, h⟩ => h ▸ legal_encode i⟩

theorem legalWords_encode : ∀ p ∈ legalWords, p.1 = encode p.2 := by
  decide

/-- The list pairs each command with its word. -/
theorem mem_legalWords {w : Word} {i : Instr} : (w, i) ∈ legalWords ↔ w = encode i := by
  refine ⟨legalWords_encode (w, i), ?_⟩
  rintro rfl
  cases i with
  | nop | srst | dxt5 | dxt5f => decide
  | alpha sel | colorrgb sel | dxt1 sel => obtain rfl | rfl := Laws.EncodeLegal.bit_cases sel <;> decide

/-! The rows of the opcode table: those with a full mask, and those whose mask leaves out `SEL` alone (R85). -/

theorem eq_of_selectsRow_full {w m : Word} (h : selectsRow w (m, 0xFFFFFFFF) = true) : w = m := by
  rw [← show w &&& 0xFFFFFFFF = m from eq_of_beq h]
  exact BitVec.and_allOnes.symm

theorem fields_of_selectsRow_sel {w m : Word} (h : selectsRow w (m, 0xFFFFFFEF) = true) :
    rsvField w = rsvField m ∧ opField w = opField m := by
  rw [← show w &&& 0xFFFFFFEF = m from eq_of_beq h, rsvField, rsvField, opField, opField,
    BitVec.extractLsb'_and, BitVec.extractLsb'_and]
  exact ⟨BitVec.and_allOnes.symm, BitVec.and_allOnes.symm⟩

/-- A command word selects the row of its command. -/
theorem exists_selectsRow_encode (i : Instr) : ∃ row ∈ opcodeRows, selectsRow (encode i) row = true := by
  cases i with
  | nop | srst | dxt5 | dxt5f => decide
  | alpha sel | colorrgb sel | dxt1 sel => obtain rfl | rfl := Laws.EncodeLegal.bit_cases sel <;> decide

theorem exists_encode_of_selectsRow {w : Word} (h : ∃ row ∈ opcodeRows, selectsRow w row = true) : ∃ i, w = encode i := by
  simp only [opcodeRows, List.exists_mem_cons_iff, List.not_mem_nil, false_and, exists_false, or_false] at h
  obtain h | h | h | h | h | h | h := h
  · exact ⟨.nop, eq_of_selectsRow_full h⟩
  · obtain ⟨hrsv, hop⟩ := fields_of_selectsRow_sel h
    exact ⟨.alpha (selField w), eq_encode_iff.mpr ⟨hrsv, rfl, hop⟩⟩
  · obtain ⟨hrsv, hop⟩ := fields_of_selectsRow_sel h
    exact ⟨.colorrgb (selField w), eq_encode_iff.mpr ⟨hrsv, rfl, hop⟩⟩
  · exact ⟨.srst, eq_of_selectsRow_full h⟩
  · obtain ⟨hrsv, hop⟩ := fields_of_selectsRow_sel h
    exact ⟨.dxt1 (selField w), eq_encode_iff.mpr ⟨hrsv, rfl, hop⟩⟩
  · exact ⟨.dxt5, eq_of_selectsRow_full h⟩
  · exact ⟨.dxt5f, eq_of_selectsRow_full h⟩

/-- Settles O2: each of the four ways to name the legal words names the words `encode i`. -/
theorem legalWordsAreTheTen : Obligations.LegalWordsAreTheTen := by
  intro w
  simp only [mem_legalWords]
  exact ⟨legal_iff_encode, fun i => decodeEncodeAgree w i, legal_iff_encode.trans
    ⟨fun ⟨i, h⟩ => h ▸ exists_selectsRow_encode i, exists_encode_of_selectsRow⟩⟩

/-- Settles O3: a reserved bit that is set fails the first test of `legal` and of `decode`. -/
theorem reservedBitsMustBeZero : Obligations.ReservedBitsMustBeZero :=
  ⟨rsvField_encode, fun _ h => ⟨Bool.eq_false_iff.mpr fun hl => h (legal_fields hl).1, decode_of_rsv_ne_zero h⟩⟩

/-- Settles O4: seven of the words are `encode` of their commands, and the other three fail one test each. -/
theorem familyWordsDecode : Obligations.FamilyWordsDecode :=
  ⟨decode_encode .nop, decode_encode .srst, decode_encode (.alpha 1), decode_encode (.colorrgb 0), decode_encode (.dxt1 1),
    decode_encode .dxt5, decode_encode .dxt5f, rfl, rfl, decode_of_rsv_ne_zero (by decide)⟩

/-! `SEL` (R83). -/

theorem lowHalf_getElem? (blk : Vector Byte 16) {j : Nat} (hj : j < 8) : (lowHalf blk)[j]? = blk[j]? := by
  match j, hj with
  | 0, _ | 1, _ | 2, _ | 3, _ | 4, _ | 5, _ | 6, _ | 7, _ => simp [lowHalf]

theorem highHalf_getElem? (blk : Vector Byte 16) {j : Nat} (hj : j < 8) : (highHalf blk)[j]? = blk[8 + j]? := by
  match j, hj with
  | 0, _ | 1, _ | 2, _ | 3, _ | 4, _ | 5, _ | 6, _ | 7, _ => simp [highHalf]

theorem InFlight.half_getElem? (f : InFlight) {j : Nat} (hj : j < 8) : f.half[j]? = f.blk[8 * f.sel.toNat + j]? := by
  obtain h | h := Laws.EncodeLegal.bit_cases f.sel
  · rw [InFlight.half, if_pos h, lowHalf_getElem? f.blk hj, h, show 8 * (0 : BitVec 1).toNat + j = j from Nat.zero_add j]
  · rw [InFlight.half, if_neg (by rw [h]; decide), highHalf_getElem? f.blk hj, h]
    rfl

/-- Settles O5: the two halves byte by byte, and the words of the four commands without `SEL`. -/
theorem selChoosesTheHalf : Obligations.SelChoosesTheHalf := by
  refine ⟨fun f j hj => f.half_getElem? hj, ?_⟩
  simp only [List.forall_mem_cons, List.not_mem_nil, false_imp_iff, implies_true, and_true]
  exact ⟨⟨rfl, rfl⟩, ⟨rfl, rfl⟩, ⟨rfl, rfl⟩, ⟨rfl, rfl⟩⟩

end Sys2Proof.Machine
end

section
/-! PROOFS. The commands (30_encoding.md rules R80, R86, R91): what a write of any word to `CMD` does, what a command leaves
alone, the launch and the whole run of a decode command, and the block load before it. -/
namespace Sys2Proof.Machine

/-! The block load (R91, R22). -/

/-- A machine with an empty schedule and an idle block performs the host's next register write. -/
theorem step_wr {s : State} {r : Reg} {v : Word} {rest : List HostOp} (hr : r ≠ .cmd) (hs : s.sched = [])
    (hb : s.busy = false) (hscript : s.script = wr r v :: rest) : step s = .next ((s.setScript rest).setReg r v) := by
  have ha : s.nextAgent = .host := by simp [State.nextAgent, hs, hb]
  have hd : s.dropSched = s := by ext1 <;> simp [hs]
  rw [step_host ha, hd, hostTurn_cons hscript, hostOp_wr hr]

theorem State.setReg_setScript (s : State) (r : Reg) (v : Word) (l l' : List HostOp) :
    ((s.setScript l).setReg r v).setScript l' = (s.setScript l').setReg r v := by
  cases r <;> rfl

/-- `s` after a list of register writes. -/
def State.setRegs (s : State) (ws : List (Reg × Word)) : State := ws.foldl (fun t w => t.setReg w.1 w.2) s

/-- With an empty schedule and an idle block a list of register writes is performed, one step each. -/
theorem runSteps_writes {ws : List (Reg × Word)} (hws : ∀ w ∈ ws, w.1 ≠ .cmd) {s : State} {rest : List HostOp}
    (hscript : s.script = ws.map (fun w => wr w.1 w.2) ++ rest) (hs : s.sched = []) (hb : s.busy = false) :
    runSteps ws.length s = .next ((s.setScript rest).setRegs ws) := by
  induction ws generalizing s with
  | nil =>
    obtain rfl : s.script = rest := hscript
    rfl
  | cons w ws ih =>
    obtain ⟨hw, hws⟩ := List.forall_mem_cons.mp hws
    rw [List.length_cons, runSteps_succ (step_wr hw hs hb hscript), ih hws (by simp) (by simp [hs]) (by simp [hb]),
      State.setReg_setScript]
    rfl

/-- The register writes of `LDBLK16`. -/
def blockWrites (b : Nat → Byte) : List (Reg × Word) :=
  [(.blk0, le32 (b 0) (b 1) (b 2) (b 3)), (.blk1, le32 (b 4) (b 5) (b 6) (b 7)),
    (.blk2, le32 (b 8) (b 9) (b 10) (b 11)), (.blk3, le32 (b 12) (b 13) (b 14) (b 15))]

theorem regByte_le32 (b0 b1 b2 b3 : Byte) :
    regByte (le32 b0 b1 b2 b3) 0 = b0 ∧ regByte (le32 b0 b1 b2 b3) 1 = b1 ∧ regByte (le32 b0 b1 b2 b3) 2 = b2 ∧
      regByte (le32 b0 b1 b2 b3) 3 = b3 := by
  refine ⟨BitVec.extractLsb'_append_eq_right, ?_, ?_, ?_⟩
  · rw [regByte, le32, BitVec.extractLsb'_append_eq_of_le (by decide)]
    exact BitVec.extractLsb'_append_eq_right
  · rw [regByte, le32, BitVec.extractLsb'_append_eq_of_le (by decide), BitVec.extractLsb'_append_eq_of_le (by decide)]
    exact BitVec.extractLsb'_append_eq_right
  · rw [regByte, le32, BitVec.extractLsb'_append_eq_of_le (by decide), BitVec.extractLsb'_append_eq_of_le (by decide),
      BitVec.extractLsb'_append_eq_of_le (by decide)]
    exact BitVec.extractLsb'_eq_self

theorem blockBytes_blockWrites (s : State) (b : Nat → Byte) {j : Nat} (hj : j < 16) :
    (s.setRegs (blockWrites b)).blockBytes[j]? = some (b j) := by
  have hbytes : (s.setRegs (blockWrites b)).blockBytes = Vector.ofFn fun i : Fin 16 => b i := by
    simp only [State.setRegs, blockWrites, List.foldl, State.setReg, State.blockBytes, regByte_le32]
    rfl
  rw [hbytes, Vector.getElem?_ofFn, dif_pos hj]

/-- Settles O7: the four register writes of `LDBLK16`, one step each. -/
theorem loadBlockSixteen : Obligations.LoadBlockSixteen := by
  intro s b rest hscript hs hb
  have hcmd : ∀ w ∈ blockWrites b, w.1 ≠ .cmd := by simp [blockWrites]
  exact ⟨_, runSteps_writes hcmd hscript hs hb, fun _ hj => blockBytes_blockWrites _ b hj, rfl, rfl, rfl, rfl, hb, rfl⟩

/-! The launch (R86). -/

/-- Settles O18: `exec_launch` for each of the five commands. -/
theorem decodeCommandsLaunch : Obligations.DecodeCommandsLaunch := fun _ _ hr =>
  ⟨exec_launch rfl hr, exec_launch rfl hr, exec_launch rfl hr, exec_launch rfl hr, exec_launch rfl hr⟩

/-! A write of any word to `CMD`, by the lines of rule R80. -/

/-- What a word other than that of `SRST` does to an idle block without an error: lines 4, 5 and 6. -/
def wordEffect (w : Word) (s : State) : State :=
  if legal w = false then { s with err := 1 }
  else if opField w = 0 then { s with done := true }
  else { s with f := s.operation (launchOp w) (selField w), busy := true, done := false }

theorem launchOp_eq (w : Word) : launchOp w =
    if opField w = 0x1 then .alpha else if opField w = 0x2 then .colorrgb else if opField w = 0xB then .dxt1 else .dxt5 := rfl

/-- The effect of a command by its word. -/
theorem wordEffect_encode {i : Instr} (hi : i ≠ .srst) (s : State) : wordEffect (encode i) s = commandEffect i s := by
  rw [wordEffect, if_neg (by simp [legal_encode]), launchOp_eq, opField_encode, selField_encode]
  cases i with
  | srst => exact absurd rfl hi
  | nop | alpha | colorrgb | dxt1 | dxt5 | dxt5f => rfl

theorem wordEffect_illegal {w : Word} (h : legal w = false) {s : State} (hs : s.err = 0) :
    wordEffect w s = s.raise .illOp 0 := by
  rw [wordEffect, if_pos h, State.raise_first hs]
  rfl

theorem not_legal_of_decode_error {w : Word} {r : Illegal} (h : decode w = .error r) : legal w = false :=
  Bool.eq_false_iff.mpr fun hl => by
    obtain ⟨i, rfl⟩ := exists_encode_of_legal hl
    rw [decode_encode] at h
    cases h

/-- Only the effect on an idle block without an error matters to `State.command`. -/
theorem State.command_congr {s : State} {g h : State → State} (hgh : s.err = 0 → g s = h s) : s.command g = s.command h := by
  by_cases he : s.err = 0
  · rw [State.command, State.command, hgh he]
  · rw [State.command_latched he, State.command_latched he]

/-- A word that is not `SRST`'s meets the tests of lines 2 and 3 and then has its effect. -/
theorem cmdWrite_command {w : Word} (hw : w ≠ encode .srst) (s : State) :
    cmdWrite w s = .next (s.command (wordEffect w)) := by
  cases hd : decode w with
  | ok i =>
    obtain rfl := eq_encode_of_decode hd
    have hi : i ≠ .srst := fun h => hw (h ▸ rfl)
    rw [cmdWrite_legal hd, exec_command hi, funext (wordEffect_encode hi)]
  | error r =>
    rw [cmdWrite_illegal hd, illegalCommand]
    exact congrArg _ (State.command_congr fun hs => (wordEffect_illegal (not_legal_of_decode_error hd) hs).symm)

/-- Settles O15: line 1 is `SRST`'s own; for every other word the outcomes of `State.command` are lines 2, 3 and the effect. -/
theorem commandDispatch : Obligations.CommandDispatch := by
  intro w s
  refine ⟨rfl, s.f, ?_⟩
  by_cases hw : w = 0x00000003
  · rw [if_pos hw, hw]
    exact cmdWrite_legal (decode_encode .srst) s
  rw [if_neg hw, cmdWrite_command hw]
  obtain ⟨he, hc⟩ | ⟨he, hb, hc⟩ | ⟨he, hb, hc⟩ := State.command_cases s (wordEffect w)
  · rw [if_pos he, hc]
  · rw [if_neg (not_not.mpr he), if_pos hb, hc]
  · rw [if_neg (not_not.mpr he), if_neg (Bool.eq_false_iff.mp hb), hc, wordEffect, apply_ite Host.Outcome.next,
      apply_ite Host.Outcome.next]
    rfl

/-! The frame of the commands. -/

/-- A command other than `SRST` can change the flags and the in-flight record, and the record only by a launch. -/
theorem exec_frame {i : Instr} (hi : i ≠ .srst) (s : State) :
    ∃ f b d e, exec i s = .next { s with f := f, busy := b, done := d, err := e } ∧ (s.busy = false → e = s.err) ∧
      (i = .nop → b = s.busy) ∧ (commandOp i = none ∨ s.busy = true ∨ s.err ≠ 0 → f = s.f) := by
  rw [exec_command hi]
  obtain ⟨he, hc⟩ | ⟨he, hb, hc⟩ | ⟨he, hb, hc⟩ := State.command_cases s (commandEffect i)
  · exact ⟨_, _, _, _, congrArg _ hc, fun _ => rfl, fun _ => rfl, fun _ => rfl⟩
  · exact ⟨_, _, _, _, congrArg _ hc, fun h => by simp [hb] at h, fun _ => rfl, fun _ => rfl⟩
  · rw [hc]
    cases i with
    | srst => exact absurd rfl hi
    | nop => exact ⟨_, _, _, _, rfl, fun _ => rfl, fun _ => rfl, fun _ => rfl⟩
    | alpha | colorrgb | dxt1 | dxt5 | dxt5f =>
      exact ⟨_, _, _, _, rfl, fun _ => rfl, nofun, by simp [commandOp, he, hb]⟩

/-- Settles O21: `SRST` resets the registers, and `exec_frame` for the others. -/
theorem commandFrame : Obligations.CommandFrame := by
  intro i s
  by_cases hi : i = .srst
  · subst hi
    exact ⟨s.resetRegs, rfl, fun _ => rfl, rfl, rfl, rfl, rfl, rfl, fun h => absurd rfl h, nofun, fun _ => rfl, fun _ => rfl⟩
  · obtain ⟨f, b, d, e, hx, herr, hbusy, hf⟩ := exec_frame hi s
    exact ⟨_, hx, fun _ => rfl, rfl, rfl, rfl, rfl, rfl, fun _ => ⟨rfl, rfl, rfl, rfl, rfl, rfl, rfl, herr⟩,
      fun hn => ⟨hf (.inl (hn ▸ rfl)), hbusy hn⟩, fun h => absurd h hi, hf⟩

/-! A decode command to its end (R107, R108, R126, R138, R139). -/

/-- With its footprint writable the engine alone performs the whole write sequence of an operation just launched. -/
theorem engineRun_writeSeq {s : State} (hb : s.busy = true) (hk : s.f.k = 0) (hwr : s.canWriteAll s.f) :
    engineRun s.f.writeSeq.length s = .next (s.performed s.f.writeSeq.length).flagComplete := by
  obtain ⟨n, hn⟩ : ∃ n, n + 1 = s.f.writeSeq.length := ⟨_, Nat.sub_add_cancel s.f.writeSeq_pos⟩
  have hlt : n < s.f.writeSeq.length := hn ▸ n.lt_succ_self
  have hfirst : engineRun n s = .next (s.performed n) :=
    engineRun_performed hb hk hlt fun w hw => hwr.isWritable (List.mem_of_mem_take hw)
  have hlast : engineTurn (s.performed n) = .next (s.performed (n + 1)).flagComplete :=
    engineTurn_performed_last hb (List.getElem?_eq_getElem hlt) (hwr.isWritable (List.getElem_mem hlt)) hn
  rw [← hn, engineRun_add hfirst, engineRun_succ hlast]
  rfl

/-- The steps of the engine's bound that are left over when the operation is complete do nothing. -/
theorem engineRun_64 {s : State} (hb : s.busy = true) (hk : s.f.k = 0) (hwr : s.canWriteAll s.f) :
    engineRun 64 s = .next (s.performed s.f.writeSeq.length).flagComplete := by
  rw [← Nat.add_sub_cancel' s.f.writeSeq_le, engineRun_add (engineRun_writeSeq hb hk hwr)]
  exact engineRun_idle _ rfl

/-- Settles O44: the launch, and the engine's run from it. -/
theorem decodeCommandsComplete : Obligations.DecodeCommandsComplete := by
  intro i op sel s hi hr hwr
  rw [runCommand, exec_launch hi hr]
  refine (engineRun_64 (s := s.launch op sel) rfl rfl hwr).trans ?_
  rw [State.performed, List.take_length]
  rfl

end Sys2Proof.Machine
end

section
/-! PROOFS. The colour block (40_color_block.md rules R101 to R110) and the alpha palette's range (41_alpha_block.md rule R127):
the value of each field, channel and palette entry, what a palette entry can be, and the value each lane receives. -/
namespace Sys2Proof.Machine

/-! The fields of a packed colour and their expansion (R101). -/

theorem r5_toNat (p : BitVec 16) : (r5 p).toNat = p.toNat / 2048 := by
  rw [r5, BitVec.extractLsb'_toNat, Nat.shiftRight_eq_div_pow]
  omega

theorem g6_toNat (p : BitVec 16) : (g6 p).toNat = p.toNat / 32 % 64 := by
  rw [g6, BitVec.extractLsb'_toNat, Nat.shiftRight_eq_div_pow]

theorem b5_toNat (p : BitVec 16) : (b5 p).toNat = p.toNat % 32 := by
  rw [b5, BitVec.extractLsb'_toNat, Nat.shiftRight_zero]

theorem expand5_toNat (v : BitVec 5) : (expand5 v).toNat = 8 * v.toNat := by
  simp only [expand5, BitVec.toNat_shiftLeft, BitVec.toNat_setWidth, Nat.shiftLeft_eq]
  omega

theorem expand6_toNat (v : BitVec 6) : (expand6 v).toNat = 4 * v.toNat := by
  simp only [expand6, BitVec.toNat_shiftLeft, BitVec.toNat_setWidth, Nat.shiftLeft_eq]
  omega

/-- Settles O34: one lemma per field and per expansion. -/
theorem expansionIsLeftShift : Obligations.ExpansionIsLeftShift := fun p =>
  ⟨r5_toNat p, g6_toNat p, b5_toNat p, expand5_toNat _, expand6_toNat _, expand5_toNat _⟩

/-! The two means of channel values do not wrap (R103, R109). -/

theorem third_toNat (u v : Byte) : (third u v).toNat = (2 * u.toNat + v.toNat) / 3 := by
  rw [third, BitVec.toNat_ofNat]
  omega

theorem average_toNat (u v : Byte) : (average u v).toNat = (u.toNat + v.toNat) / 2 := by
  rw [average, BitVec.toNat_ofNat]
  omega

/-! The entries of the colour palette (R102, R103). -/

theorem fourColor_iff {c : Block8} : fourColor c = true ↔ (color1 c).toNat < (color0 c).toNat := decide_eq_true_iff

theorem fourColor_eq_false_iff {c : Block8} : fourColor c = false ↔ (color0 c).toNat ≤ (color1 c).toNat :=
  decide_eq_false_iff_not.trans Nat.not_lt

theorem pal4_zero (c : Block8) : pal4 c 0 = expand565 (color0 c) := rfl

theorem pal4_one (c : Block8) : pal4 c 1 = expand565 (color1 c) := rfl

theorem pal4_two_of_fourColor {c : Block8} (h : (color1 c).toNat < (color0 c).toNat) :
    pal4 c 2 = Rgba.mix third (expand565 (color0 c)) (expand565 (color1 c)) := if_pos (fourColor_iff.mpr h)

theorem pal4_three_of_fourColor {c : Block8} (h : (color1 c).toNat < (color0 c).toNat) :
    pal4 c 3 = Rgba.mix third (expand565 (color1 c)) (expand565 (color0 c)) := if_pos (fourColor_iff.mpr h)

theorem pal4_two_of_threeColor {c : Block8} (h : (color0 c).toNat ≤ (color1 c).toNat) :
    pal4 c 2 = Rgba.mix average (expand565 (color0 c)) (expand565 (color1 c)) :=
  if_neg (Bool.eq_false_iff.mp (fourColor_eq_false_iff.mpr h))

theorem pal4_three_of_threeColor {c : Block8} (h : (color0 c).toNat ≤ (color1 c).toNat) :
    pal4 c 3 = { r := 0, g := 0, b := 0, a := 0 } :=
  if_neg (Bool.eq_false_iff.mp (fourColor_eq_false_iff.mpr h))

/-- The channels of entry 3 of the four-colour mode, which the model gives with the endpoints exchanged. -/
theorem third_toNat_exchanged (u v : Byte) : (third v u).toNat = (u.toNat + 2 * v.toNat) / 3 := by
  rw [third_toNat, Nat.add_comm]

/-- Settles O35: the entry of each mode, and the exact quotients `third_toNat` and `average_toNat` in its channels. -/
theorem colourPalette : Obligations.ColourPalette := by
  rintro c u v rfl rfl
  refine ⟨pal4_zero c, pal4_one c, fun h => ?_, fun h => ?_⟩
  · rw [pal4_two_of_fourColor h, pal4_three_of_fourColor h]
    exact ⟨⟨third_toNat _ _, third_toNat _ _, third_toNat _ _, rfl⟩,
      third_toNat_exchanged _ _, third_toNat_exchanged _ _, third_toNat_exchanged _ _, rfl⟩
  · rw [pal4_two_of_threeColor h]
    exact ⟨⟨average_toNat _ _, average_toNat _ _, average_toNat _ _, rfl⟩, pal4_three_of_threeColor h⟩

/-! The colour indices (R105). -/

/-- Field `i` of a word of `b`-bit fields, counted from the least significant bits. -/
theorem toNat_extractLsb'_field {n : Nat} (w : BitVec n) (b i : Nat) :
    (w.extractLsb' (b * i) b).toNat = w.toNat / (2 ^ b) ^ i % 2 ^ b := by
  rw [BitVec.extractLsb'_toNat, Nat.shiftRight_eq_div_pow, pow_mul]

theorem ci_toNat (c : Block8) (i : Nat) : (ci c i).toNat = (cidx c).toNat / 4 ^ i % 4 := toNat_extractLsb'_field _ 2 i

/-- Byte `y` of the index field is byte `4 + y` of the block. -/
theorem regByte_cidx (blk : Block8) {y : Nat} (hy : y < 4) : blk[4 + y]? = some (regByte (cidx blk) y) := by
  match y, hy with
  | 0, _ | 1, _ | 2, _ | 3, _ => simp [cidx, regByte_le32]

/-- Two-bit field `i` of a word lies in byte `i / 4`, as that byte's field `i % 4`. -/
theorem extractLsb'_regByte (w : Word) (i : Nat) :
    w.extractLsb' (2 * i) 2 = (regByte w (i / 4)).extractLsb' (2 * (i % 4)) 2 := by
  ext j hj
  have hbit : 8 * (i / 4) + (2 * (i % 4) + j) = 2 * i + j := by omega
  have hin : 2 * (i % 4) + j < 8 := by omega
  simp [regByte, hbit, hin]

theorem ci_eq_row (c : Block8) (i : Nat) : ci c i = (regByte (cidx c) (i / 4)).extractLsb' (2 * (i % 4)) 2 :=
  extractLsb'_regByte _ i

/-- Settles O36: `ci_toNat` in the whole field, `ci_eq_row` in the byte of the row. -/
theorem colourIndexBits : Obligations.ColourIndexBits := by
  refine fun c i hi => ⟨ci_toNat c i, fun b hb => ?_⟩
  have hbyte : regByte (cidx c) (i / 4) = b := Option.some.inj ((regByte_cidx c (by omega)).symm.trans hb)
  rw [ci_eq_row, hbyte]
  exact toNat_extractLsb'_field b 2 (i % 4)

/-! The laws of the colour palette (R110). -/

theorem pal4_congr {c d : Block8} (h0 : color0 c = color0 d) (h1 : color1 c = color1 d) (j : BitVec 2) :
    pal4 c j = pal4 d j := by
  have hmode : fourColor c = fourColor d := by rw [fourColor, fourColor, h0, h1]
  rw [pal4, pal4, hmode, h0, h1]

/-- An entry is an expanded colour, a mean of two expanded colours, or the transparent entry of the three-colour mode. -/
theorem pal4_cases (c : Block8) (j : BitVec 2) :
    (∃ p, pal4 c j = expand565 p) ∨
    (∃ f p q, (f = third ∨ f = average) ∧ pal4 c j = Rgba.mix f (expand565 p) (expand565 q)) ∨
    (j = 3 ∧ (color0 c).toNat ≤ (color1 c).toNat ∧ pal4 c j = { r := 0, g := 0, b := 0, a := 0 }) := by
  have hj : j = 0 ∨ j = 1 ∨ j = 2 ∨ j = 3 := by revert j; decide
  obtain rfl | rfl | rfl | rfl := hj
  · exact .inl ⟨_, pal4_zero c⟩
  · exact .inl ⟨_, pal4_one c⟩
  · obtain h | h := Nat.lt_or_ge (color1 c).toNat (color0 c).toNat
    · exact .inr (.inl ⟨_, _, _, .inl rfl, pal4_two_of_fourColor h⟩)
    · exact .inr (.inl ⟨_, _, _, .inr rfl, pal4_two_of_threeColor h⟩)
  · obtain h | h := Nat.lt_or_ge (color1 c).toNat (color0 c).toNat
    · exact .inr (.inl ⟨_, _, _, .inl rfl, pal4_three_of_fourColor h⟩)
    · exact .inr (.inr ⟨rfl, h, pal4_three_of_threeColor h⟩)

theorem pal4_alpha_ne_255_iff {c : Block8} {j : BitVec 2} :
    (pal4 c j).a ≠ 255 ↔ j = 3 ∧ (color0 c).toNat ≤ (color1 c).toNat := by
  constructor
  · intro ha
    obtain ⟨p, h⟩ | ⟨f, p, q, -, h⟩ | ⟨hj, hle, -⟩ := pal4_cases c j
    · exact absurd (congrArg Rgba.a h) ha
    · exact absurd (congrArg Rgba.a h) ha
    · exact ⟨hj, hle⟩
  · rintro ⟨rfl, hle⟩
    rw [pal4_three_of_threeColor hle]
    decide

/-- Exchanging two unequal endpoints changes the mode. -/
theorem fourColor_exchanged {c d : Block8} (h0 : color0 c = color1 d) (h1 : color1 c = color0 d)
    (hne : color0 c ≠ color1 c) : fourColor c = !fourColor d := by
  have hne' : (color0 c).toNat ≠ (color1 c).toNat := fun h => hne (BitVec.eq_of_toNat_eq h)
  rw [Bool.eq_iff_iff, Bool.not_eq_true', fourColor_iff, fourColor_eq_false_iff, ← h0, ← h1]
  omega

/-- Settles O37: one lemma per law. -/
theorem colourLaws : Obligations.ColourLaws := by
  refine ⟨fun c d => pal4_congr, fun c => pal4_three_of_threeColor, fun c j => pal4_alpha_ne_255_iff, fun c d h0 h1 => ?_,
    fun c h0 h1 => ?_, fun c d h i => ?_⟩
  · exact ⟨congrArg expand565 h0, congrArg expand565 h1, fourColor_exchanged h0 h1⟩
  · rw [fourColor_iff, h0, h1]
    decide
  · rw [ci, ci, h]

/-! The ranges of the colour palette bytes (R109). -/

/-- No channel is above the largest expanded value of its field. -/
def Rgba.inRange (e : Rgba) : Prop := e.r.toNat ≤ 248 ∧ e.g.toNat ≤ 252 ∧ e.b.toNat ≤ 248

theorem expand565_inRange (p : BitVec 16) : (expand565 p).inRange := by
  have hr := expand5_toNat (r5 p)
  have hg := expand6_toNat (g6 p)
  have hb := expand5_toNat (b5 p)
  simp only [Rgba.inRange, expand565]
  omega

/-- Both means are at most the larger channel value. -/
theorem mean_le_max {f : Byte → Byte → Byte} (hf : f = third ∨ f = average) (u v : Byte) :
    (f u v).toNat ≤ max u.toNat v.toNat := by
  obtain rfl | rfl := hf
  · rw [third_toNat]; omega
  · rw [average_toNat]; omega

theorem Rgba.mix_inRange {f : Byte → Byte → Byte} (hf : ∀ u v, (f u v).toNat ≤ max u.toNat v.toNat) {u v : Rgba}
    (hu : u.inRange) (hv : v.inRange) : (Rgba.mix f u v).inRange := by
  obtain ⟨hur, hug, hub⟩ := hu
  obtain ⟨hvr, hvg, hvb⟩ := hv
  exact ⟨(hf _ _).trans (max_le hur hvr), (hf _ _).trans (max_le hug hvg), (hf _ _).trans (max_le hub hvb)⟩

theorem pal4_inRange (c : Block8) (j : BitVec 2) : (pal4 c j).inRange := by
  obtain ⟨p, h⟩ | ⟨f, p, q, hf, h⟩ | ⟨-, -, h⟩ := pal4_cases c j <;> rw [h]
  · exact expand565_inRange p
  · exact Rgba.mix_inRange (mean_le_max hf) (expand565_inRange p) (expand565_inRange q)
  · exact ⟨Nat.zero_le _, Nat.zero_le _, Nat.zero_le _⟩

/-! The interpolated entries of the alpha palette (R122, R127). -/

/-- A truncated weighted mean lies between its two values. -/
theorem weightedMean_between {x y d : Nat} (hd : 0 < d) (hxy : x + y = d) (p q : Nat) :
    min p q ≤ (x * p + y * q) / d ∧ (x * p + y * q) / d ≤ max p q := by
  subst hxy
  constructor
  · rw [Nat.le_div_iff_mul_le hd, Nat.mul_comm, Nat.add_mul]
    exact Nat.add_le_add (Nat.mul_le_mul_left x (min_le_left p q)) (Nat.mul_le_mul_left y (min_le_right p q))
  · refine Nat.div_le_of_le_mul ?_
    rw [Nat.add_mul]
    exact Nat.add_le_add (Nat.mul_le_mul_left x (le_max_left p q)) (Nat.mul_le_mul_left y (le_max_right p q))

/-- The quotient of an interpolated entry is a byte, since it does not exceed the larger endpoint. -/
theorem ramp_toNat (a : Block8) {d i : Nat} (hd : 0 < d) (h1 : 1 ≤ i) (hi : i ≤ d + 1) :
    (ramp d i a).toNat = ((d + 1 - i) * (alpha0 a).toNat + (i - 1) * (alpha1 a).toNat) / d := by
  have hweights : d + 1 - i + (i - 1) = d := by omega
  obtain ⟨-, hmax⟩ := weightedMean_between hd hweights (alpha0 a).toNat (alpha1 a).toNat
  exact Nat.mod_eq_of_lt (hmax.trans_lt (max_lt (alpha0 a).isLt (alpha1 a).isLt))

theorem ramp_between (a : Block8) {d i : Nat} (hd : 0 < d) (h1 : 1 ≤ i) (hi : i ≤ d + 1) :
    min (alpha0 a).toNat (alpha1 a).toNat ≤ (ramp d i a).toNat ∧
      (ramp d i a).toNat ≤ max (alpha0 a).toNat (alpha1 a).toNat := by
  rw [ramp_toNat a hd h1 hi]
  exact weightedMean_between hd (by omega) _ _

theorem pal8_of_eightValue {a : Block8} (h : (alpha1 a).toNat < (alpha0 a).toNat) {i : BitVec 3} (hi : 2 ≤ i.toNat) :
    pal8 a i = ramp 7 i.toNat a := by
  obtain ⟨n, hn⟩ := Nat.exists_eq_add_of_le' hi
  simp [pal8, eightValue, hn, h]

theorem pal8_of_sixValue {a : Block8} (h : (alpha0 a).toNat ≤ (alpha1 a).toNat) {i : BitVec 3} (hi : 2 ≤ i.toNat)
    (hi5 : i.toNat ≤ 5) : pal8 a i = ramp 5 i.toNat a := by
  obtain ⟨n, hn⟩ := Nat.exists_eq_add_of_le' hi
  have h6 : n ≠ 4 := by omega
  have h7 : n ≠ 5 := by omega
  simp [pal8, eightValue, hn, h, h6, h7]

/-- Settles O41: `pal4_inRange` for the colours, `ramp_between` for alpha in either mode. -/
theorem paletteRanges : Obligations.PaletteRanges := by
  refine ⟨pal4_inRange, fun a i hi hmode => ?_⟩
  obtain h | h := Nat.lt_or_ge (alpha1 a).toNat (alpha0 a).toNat
  · rw [pal8_of_eightValue h hi]
    exact ramp_between a (by decide) (by omega) (by omega)
  · rw [pal8_of_sixValue h hi (by omega)]
    exact ramp_between a (by decide) (by omega) (by omega)

/-! The value of each lane (R106, R125, R137). -/

theorem InFlight.value_of_colour {f : InFlight} (h : f.op = .dxt1 ∨ f.op = .colorrgb) (i : Nat) (l : Lane) :
    f.value i l = (pal4 f.half (ci f.half i)).lane l := by
  obtain h | h := h <;> rw [InFlight.value, h]

theorem InFlight.value_of_alpha {f : InFlight} (h : f.op = .alpha) (i : Nat) (l : Lane) :
    f.value i l = pal8 f.half (ai f.half i) := by
  rw [InFlight.value, h]

theorem InFlight.value_of_dxt5 {f : InFlight} (h : f.op = .dxt5) (i : Nat) (l : Lane) :
    f.value i l = dxt5Value f.blk i l := by
  rw [InFlight.value, h]

/-- Settles O42: the value by operation, read off at each lane. -/
theorem laneValues : Obligations.LaneValues := by
  refine fun f i => ⟨fun h => ?_, fun h => ?_, fun h => ?_, fun h => ?_⟩
  · exact ⟨f.value_of_colour h i .r, f.value_of_colour h i .g, f.value_of_colour h i .b, f.value_of_colour h i .a⟩
  · rw [h, Op.lanes]
  · exact ⟨f.value_of_alpha h i .a, by rw [h, Op.lanes]⟩
  · exact ⟨f.value_of_dxt5 h i .r, f.value_of_dxt5 h i .g, f.value_of_dxt5 h i .b, f.value_of_dxt5 h i .a⟩

end Sys2Proof.Machine
end

section
/-! PROOFS. The alpha block (41_alpha_block.md rules R120 to R128): the entries of the alpha palette in both modes, the index
field and its 3-bit indices, and the laws of the palette. -/
namespace Sys2Proof.Machine

/-! The entries of the alpha palette (R121, R122). -/

theorem pal8_zero (a : Block8) : pal8 a 0 = alpha0 a := rfl

theorem pal8_one (a : Block8) : pal8 a 1 = alpha1 a := rfl

theorem pal8_six_of_sixValue {a : Block8} (h : (alpha0 a).toNat ≤ (alpha1 a).toNat) : pal8 a 6 = 0 :=
  if_neg fun hlt => h.not_gt (decide_eq_true_iff.mp hlt)

theorem pal8_seven_of_sixValue {a : Block8} (h : (alpha0 a).toNat ≤ (alpha1 a).toNat) : pal8 a 7 = 255 :=
  if_neg fun hlt => h.not_gt (decide_eq_true_iff.mp hlt)

theorem pal8_toNat_of_eightValue {a : Block8} (h : (alpha1 a).toNat < (alpha0 a).toNat) {i : BitVec 3}
    (hi : 2 ≤ i.toNat) :
    (pal8 a i).toNat = ((8 - i.toNat) * (alpha0 a).toNat + (i.toNat - 1) * (alpha1 a).toNat) / 7 := by
  rw [pal8_of_eightValue h hi]
  exact ramp_toNat a (by decide) (by omega) (by omega)

theorem pal8_toNat_of_sixValue {a : Block8} (h : (alpha0 a).toNat ≤ (alpha1 a).toNat) {i : BitVec 3}
    (hi : 2 ≤ i.toNat) (hi5 : i.toNat ≤ 5) :
    (pal8 a i).toNat = ((6 - i.toNat) * (alpha0 a).toNat + (i.toNat - 1) * (alpha1 a).toNat) / 5 := by
  rw [pal8_of_sixValue h hi hi5]
  exact ramp_toNat a (by decide) (by omega) (by omega)

/-- Settles O38: one lemma per entry of each mode; the quotients are exact by `ramp_toNat`. -/
theorem alphaPalette : Obligations.AlphaPalette := by
  rintro a p q rfl rfl
  exact ⟨pal8_zero a, pal8_one a, fun h i => pal8_toNat_of_eightValue h,
    fun h => ⟨fun i => pal8_toNat_of_sixValue h, pal8_six_of_sixValue h, pal8_seven_of_sixValue h⟩⟩

/-! The alpha indices (R120, R124). -/

/-- A byte joined below a word is its lowest digit in base 256. -/
theorem toNat_append_byte {n : Nat} (w : BitVec n) (b : Byte) : (w ++ b).toNat = b.toNat + 2 ^ 8 * w.toNat := by
  rw [BitVec.toNat_append, ← Nat.shiftLeft_add_eq_or_of_lt b.isLt, Nat.shiftLeft_eq, Nat.mul_comm, Nat.add_comm]

theorem le48_toNat (b0 b1 b2 b3 b4 b5 : Byte) :
    (le48 b0 b1 b2 b3 b4 b5).toNat = b0.toNat + 2 ^ 8 * b1.toNat + 2 ^ 16 * b2.toNat + 2 ^ 24 * b3.toNat +
      2 ^ 32 * b4.toNat + 2 ^ 40 * b5.toNat := by
  simp only [le48, toNat_append_byte]
  omega

theorem ai_toNat (a : Block8) (i : Nat) : (ai a i).toNat = (aidx a).toNat / 8 ^ i % 8 := toNat_extractLsb'_field _ 3 i

/-- Settles O39: `le48_toNat` for the field, `ai_toNat` for the index of a pixel. -/
theorem alphaIndexBits : Obligations.AlphaIndexBits := by
  refine fun a i _ => ⟨fun b2 b3 b4 b5 b6 b7 => ?_, ai_toNat a i⟩
  simp only [Vector.getElem?_eq_some_iff]
  rintro ⟨_, rfl⟩ ⟨_, rfl⟩ ⟨_, rfl⟩ ⟨_, rfl⟩ ⟨_, rfl⟩ ⟨_, rfl⟩
  exact le48_toNat _ _ _ _ _ _

/-! The laws of the alpha palette (R128). -/

/-- Moving weight from the smaller value to the larger one does not decrease a weighted sum. -/
theorem weightedSum_le_of_shift {u v x y x' y' : Nat} (huv : u ≤ v) (hx : x ≤ x') (hsum : x + y = x' + y') :
    x' * u + y' * v ≤ x * u + y * v := by
  obtain ⟨k, rfl⟩ := Nat.exists_eq_add_of_le hx
  obtain rfl : y = k + y' := by omega
  rw [Nat.add_mul, Nat.add_mul, Nat.add_assoc]
  exact Nat.add_le_add_left (Nat.add_le_add_right (Nat.mul_le_mul_left k huv) _) _

/-- With `alpha1` the smaller endpoint the interpolated entries do not increase: each gives `alpha1` more weight. -/
theorem ramp_antitone {a : Block8} (h : (alpha1 a).toNat ≤ (alpha0 a).toNat) {d i j : Nat} (hd : 0 < d) (h1 : 1 ≤ i)
    (hij : i ≤ j) (hj : j ≤ d + 1) : (ramp d j a).toNat ≤ (ramp d i a).toNat := by
  rw [ramp_toNat a hd (h1.trans hij) hj, ramp_toNat a hd h1 (hij.trans hj), Nat.add_comm (_ * (alpha0 a).toNat),
    Nat.add_comm (_ * (alpha0 a).toNat)]
  exact Nat.div_le_div_right (weightedSum_le_of_shift h (by omega) (by omega))

/-- With `alpha0` the smaller endpoint they do not decrease. -/
theorem ramp_monotone {a : Block8} (h : (alpha0 a).toNat ≤ (alpha1 a).toNat) {d i j : Nat} (hd : 0 < d) (h1 : 1 ≤ i)
    (hij : i ≤ j) (hj : j ≤ d + 1) : (ramp d i a).toNat ≤ (ramp d j a).toNat := by
  rw [ramp_toNat a hd h1 (hij.trans hj), ramp_toNat a hd (h1.trans hij) hj]
  exact Nat.div_le_div_right (weightedSum_le_of_shift h (by omega) (by omega))

/-- Between equal endpoints there is one value only. -/
theorem ramp_of_eq {a : Block8} (h : alpha0 a = alpha1 a) {d i : Nat} (hd : 0 < d) (h1 : 1 ≤ i) (hi : i ≤ d + 1) :
    ramp d i a = alpha0 a := by
  obtain ⟨hmin, hmax⟩ := ramp_between a hd h1 hi
  rw [← h, min_self] at hmin
  rw [← h, max_self] at hmax
  exact BitVec.eq_of_toNat_eq (hmax.antisymm hmin)

/-- With endpoints one apart every interpolated entry after `alpha0` is truncated to `alpha1`: the numerator is
`d * alpha1` and a remainder below `d`. -/
theorem ramp_of_succ {a : Block8} (h : (alpha0 a).toNat = (alpha1 a).toNat + 1) {d i : Nat} (hd : 0 < d) (h2 : 2 ≤ i)
    (hi : i ≤ d + 1) : ramp d i a = alpha1 a := by
  have hweights : d + 1 - i + (i - 1) = d := by omega
  have hnum : (d + 1 - i) * ((alpha1 a).toNat + 1) + (i - 1) * (alpha1 a).toNat = d * (alpha1 a).toNat + (d + 1 - i) := by
    rw [Nat.mul_succ, Nat.add_right_comm, ← Nat.add_mul, hweights]
  apply BitVec.eq_of_toNat_eq
  rw [ramp_toNat a hd (by omega) hi, h, hnum, Nat.mul_add_div hd, Nat.div_eq_of_lt (by omega), Nat.add_zero]

theorem pal8_antitone_of_eightValue {a : Block8} (h : (alpha1 a).toNat < (alpha0 a).toNat) {i j : BitVec 3}
    (hi : 2 ≤ i.toNat) (hij : i.toNat ≤ j.toNat) : (pal8 a j).toNat ≤ (pal8 a i).toNat := by
  rw [pal8_of_eightValue h hi, pal8_of_eightValue h (hi.trans hij)]
  exact ramp_antitone h.le (by decide) (by omega) hij (by omega)

theorem alpha1_le_pal8_of_eightValue {a : Block8} (h : (alpha1 a).toNat < (alpha0 a).toNat) {i : BitVec 3}
    (hi : 2 ≤ i.toNat) : (alpha1 a).toNat ≤ (pal8 a i).toNat := by
  rw [pal8_of_eightValue h hi, ← min_eq_right h.le]
  exact (ramp_between a (by decide) (by omega) (by omega)).1

theorem pal8_monotone_of_sixValue {a : Block8} (h : (alpha0 a).toNat ≤ (alpha1 a).toNat) {i j : BitVec 3}
    (hi : 2 ≤ i.toNat) (hij : i.toNat ≤ j.toNat) (hj : j.toNat ≤ 5) : (pal8 a i).toNat ≤ (pal8 a j).toNat := by
  rw [pal8_of_sixValue h hi (hij.trans hj), pal8_of_sixValue h (hi.trans hij) hj]
  exact ramp_monotone h (by decide) (by omega) hij (by omega)

/-- An entry is an endpoint or one of the six that the mode decides. -/
theorem entry_cases (i : BitVec 3) : i = 0 ∨ i = 1 ∨ 2 ≤ i.toNat := by
  revert i
  decide

theorem pal8_of_eq {a : Block8} (h : alpha0 a = alpha1 a) {i : BitVec 3} (hi5 : i.toNat ≤ 5) : pal8 a i = alpha0 a := by
  obtain rfl | rfl | hi := entry_cases i
  · exact pal8_zero a
  · exact (pal8_one a).trans h.symm
  · rw [pal8_of_sixValue (h ▸ le_rfl) hi hi5]
    exact ramp_of_eq h (by decide) (by omega) (by omega)

theorem pal8_congr {a b : Block8} (h0 : alpha0 a = alpha0 b) (h1 : alpha1 a = alpha1 b) (i : BitVec 3) :
    pal8 a i = pal8 b i := by
  unfold pal8 eightValue ramp
  rw [h0, h1]

theorem pal8_of_succ {a : Block8} (h : (alpha0 a).toNat = (alpha1 a).toNat + 1) {i : BitVec 3} (hi : 2 ≤ i.toNat) :
    pal8 a i = alpha1 a := by
  rw [pal8_of_eightValue (by omega) hi]
  exact ramp_of_succ h (by decide) hi (by omega)

/-- Settles O40: one lemma per law. -/
theorem alphaLaws : Obligations.AlphaLaws :=
  ⟨fun _ h => ⟨fun _ _ => pal8_antitone_of_eightValue h, alpha1_le_pal8_of_eightValue h (by decide)⟩,
    fun _ h => ⟨fun _ _ => pal8_monotone_of_sixValue h, pal8_six_of_sixValue h, pal8_seven_of_sixValue h⟩,
    fun _ h _ => pal8_of_eq h, fun _ _ => pal8_congr, fun _ h _ => pal8_of_succ h⟩

end Sys2Proof.Machine
end

section
/-! PROOFS. The combined decode (42_dxt5_block.md rules R139 to R141): `DXT5F` is `DXT5`, and the two-pass sequences beside the
one pass. What two write sequences do to one byte is compared by `sameEffectAt`. -/
namespace Sys2Proof.Machine

/-- Settles O19: both meanings launch `DXT5`, and the two words decode to them. -/
theorem dxt5fIsDxt5 : Obligations.Dxt5fIsDxt5 := by
  refine ⟨rfl, fun s => ⟨rfl, ?_, fun hr => ⟨_, exec_launch rfl hr, rfl⟩⟩⟩
  exact (cmdWrite_legal (decode_encode .dxt5f) s).trans (cmdWrite_legal (decode_encode .dxt5) s).symm

/-! Write sequences compared at one address. -/

/-- From memories that agree at `a`, the two write sequences leave the same byte at `a`. -/
def sameEffectAt (a : Word) (xs ys : List (Word × Byte)) : Prop :=
  ∀ m n : Memory, Memory.read m a.toNat = Memory.read n a.toNat →
    Memory.read (Memory.applyWrites m xs) a.toNat = Memory.read (Memory.applyWrites n ys) a.toNat

theorem sameEffectAt.refl (a : Word) (xs : List (Word × Byte)) : sameEffectAt a xs xs := by
  induction xs with
  | nil => exact fun m n h => h
  | cons w xs ih =>
    intro m n h
    rw [Memory.applyWrites_cons, Memory.applyWrites_cons]
    apply ih
    rw [Memory.read_write, Memory.read_write, h]

theorem sameEffectAt.symm {a : Word} {xs ys : List (Word × Byte)} (h : sameEffectAt a xs ys) : sameEffectAt a ys xs :=
  fun m n hmn => (h n m hmn.symm).symm

theorem sameEffectAt.trans {a : Word} {xs ys zs : List (Word × Byte)} (h : sameEffectAt a xs ys)
    (h' : sameEffectAt a ys zs) : sameEffectAt a xs zs :=
  fun m n hmn => (h m n hmn).trans (h' n n rfl)

theorem sameEffectAt.append {a : Word} {xs ys xs' ys' : List (Word × Byte)} (h : sameEffectAt a xs ys)
    (h' : sameEffectAt a xs' ys') : sameEffectAt a (xs ++ xs') (ys ++ ys') := by
  intro m n hmn
  rw [Memory.applyWrites_append, Memory.applyWrites_append]
  exact h' _ _ (h m n hmn)

theorem sameEffectAt.flatMap {a : Word} {g h : Nat → List (Word × Byte)} {is : List Nat}
    (hgh : ∀ i ∈ is, sameEffectAt a (g i) (h i)) : sameEffectAt a (is.flatMap g) (is.flatMap h) := by
  induction is with
  | nil => exact .refl a []
  | cons i is ih =>
    rw [List.flatMap_cons, List.flatMap_cons]
    exact (hgh i List.mem_cons_self).append (ih fun j hj => hgh j (List.mem_cons_of_mem i hj))

/-- A sequence without an entry for `a` does nothing there. -/
theorem sameEffectAt_nil {a : Word} {xs : List (Word × Byte)} (h : ∀ w ∈ xs, w.1 ≠ a) : sameEffectAt a xs [] :=
  fun m _ hmn => (Memory.read_applyWrites_other m xs h).trans hmn

theorem sameEffectAt.nil_append {a : Word} {xs : List (Word × Byte)} (h : sameEffectAt a xs []) (ys : List (Word × Byte)) :
    sameEffectAt a (xs ++ ys) ys := h.append (.refl a ys)

theorem sameEffectAt.append_nil {a : Word} {ys : List (Word × Byte)} (h : sameEffectAt a ys []) (xs : List (Word × Byte)) :
    sameEffectAt a (xs ++ ys) xs := by
  simpa only [List.append_nil] using (sameEffectAt.refl a xs).append h

/-- What a sequence does at an address it writes does not depend on the memory it starts from. -/
theorem Memory.read_applyWrites_of_mem {a : Word} {ys : List (Word × Byte)} (h : a ∈ ys.map Prod.fst) (m n : Memory) :
    Memory.read (Memory.applyWrites m ys) a.toNat = Memory.read (Memory.applyWrites n ys) a.toNat := by
  induction ys generalizing m n with
  | nil => cases h
  | cons w ys ih =>
    obtain rfl | h := List.mem_cons.mp h
    · refine sameEffectAt.refl w.1 ys _ _ ?_
      rw [Memory.read_write, Memory.read_write, if_pos rfl, if_pos rfl]
    · exact ih h _ _

/-- Earlier entries for an address are lost when later ones write it again (R60). -/
theorem sameEffectAt_overwritten {a : Word} {xs ys : List (Word × Byte)} (h : a ∈ xs.map Prod.fst → a ∈ ys.map Prod.fst) :
    sameEffectAt a (xs ++ ys) ys := by
  by_cases ha : a ∈ ys.map Prod.fst
  · intro m n _
    rw [Memory.applyWrites_append]
    exact Memory.read_applyWrites_of_mem ha _ n
  · have hnil : sameEffectAt a xs [] := sameEffectAt_nil fun w hw e => ha (h (List.mem_map.mpr ⟨w, hw, e⟩))
    exact hnil.nil_append ys

/-! The lanes and the footprints of the operations of one block. -/

theorem Op.lanes_dxt5_index (l : Lane) : Op.dxt5.lanes[l.index]? = some l := by
  cases l <;> rfl

theorem Lane.eq_of_index {l m : Lane} (h : l.index = m.index) : l = m :=
  Option.some.inj ((Op.lanes_dxt5_index l).symm.trans (h ▸ Op.lanes_dxt5_index m))

theorem Lane.index_lt (l : Lane) : l.index < 4 := by
  cases l <;> decide

theorem InFlight.mem_footprint {f : InFlight} {a : Word} :
    a ∈ f.footprint ↔ ∃ i < 16, ∃ l ∈ f.op.lanes, f.laneAddr i l = a := by
  simp [InFlight.footprint, InFlight.writeSeq, InFlight.pixelWrites]

/-- An operation of all four lanes covers every operation on the same destination. -/
theorem State.footprint_subset_fourLane (s : State) {op : Op} (hop : op.lanes = Op.dxt5.lanes) (sel : BitVec 1) (op' : Op)
    (sel' : BitVec 1) : (s.operation op' sel').footprint ⊆ (s.operation op sel).footprint := by
  intro a ha
  obtain ⟨i, hi, l, -, hl⟩ := InFlight.mem_footprint.mp ha
  have hmem : l ∈ op.lanes := hop ▸ List.mem_of_getElem? (Op.lanes_dxt5_index l)
  exact InFlight.mem_footprint.mpr ⟨i, hi, l, hmem, hl⟩

theorem State.canWriteAll.of_fourLane {s : State} {op : Op} {sel : BitVec 1} (h : s.canWriteAll (s.operation op sel))
    (hop : op.lanes = Op.dxt5.lanes) (op' : Op) (sel' : BitVec 1) : s.canWriteAll (s.operation op' sel') :=
  fun _ ha => h _ (s.footprint_subset_fourLane hop sel op' sel' ha)

/-- Outside the footprint an operation does nothing. -/
theorem InFlight.writeSeq_sameEffectAt_nil {f : InFlight} {a : Word} (ha : a ∉ f.footprint) :
    sameEffectAt a f.writeSeq [] :=
  sameEffectAt_nil fun _ hw e => ha (e ▸ List.mem_map_of_mem hw)

theorem InFlight.pixelWrites_sameEffectAt_nil {f : InFlight} {a : Word} (ha : a ∉ f.footprint) {i : Nat}
    (hi : i ∈ List.range 16) : sameEffectAt a (f.pixelWrites i) [] :=
  sameEffectAt_nil fun w hw e => ha (e ▸ List.mem_map_of_mem (List.mem_flatMap.mpr ⟨i, hi, hw⟩ : w ∈ f.writeSeq))

/-! The condition of R140: no byte belongs to two lanes. -/

/-- With the stride a multiple of 4 every pixel starts at the destination's offset in its 4-byte word. -/
theorem InFlight.laneAddr_mod_four {f : InFlight} (hs : f.stride.toNat % 4 = 0) {i : Nat} (hi : i < 16) (l : Lane) :
    (f.laneAddr i l).toNat % 4 = (f.dst.toNat + l.index) % 4 := by
  obtain ⟨k, hk⟩ := Nat.dvd_of_mod_eq_zero hs
  rw [f.laneAddr_toNat hi, hk, Nat.mul_left_comm]
  omega

/-- The lanes of one pixel have different addresses. -/
theorem InFlight.lane_eq_of_laneAddr {f : InFlight} {i : Nat} {l m : Lane} (h : f.laneAddr i l = f.laneAddr i m) : l = m := by
  have hl := l.index_lt
  have hm := m.index_lt
  have hofs : BitVec.ofNat 32 l.index = BitVec.ofNat 32 m.index := add_left_cancel h
  have hnat := congrArg BitVec.toNat hofs
  simp only [BitVec.toNat_ofNat] at hnat
  exact Lane.eq_of_index (by omega)

theorem pixelsAligned.lane_eq {f : InFlight} (h : pixelsAligned f) {i j : Nat} (hi : i < 16) (hj : j < 16) {l m : Lane}
    (hlm : f.laneAddr i l = f.laneAddr j m) : l = m := by
  obtain hs | hdisj := h
  · have hl := l.index_lt
    have hm := m.index_lt
    have hmod : (f.dst.toNat + l.index) % 4 = (f.dst.toNat + m.index) % 4 := by
      rw [← f.laneAddr_mod_four hs hi, hlm, f.laneAddr_mod_four hs hj]
    exact Lane.eq_of_index (by omega)
  · by_cases hij : i = j
    · subst hij
      exact InFlight.lane_eq_of_laneAddr hlm
    · exact absurd hlm (hdisj i hi j hj hij l m)

/-- Under the condition of R140 the RGB pass and the alpha pass share no byte. -/
theorem not_mem_alpha_of_mem_colorrgb {s : State} (h : pixelsAligned (s.operation .dxt5 0)) {a : Word}
    (ha : a ∈ (s.operation .colorrgb 1).footprint) : a ∉ (s.operation .alpha 0).footprint := by
  intro ha'
  obtain ⟨i, hi, l, hl, hla⟩ := InFlight.mem_footprint.mp ha
  obtain ⟨j, hj, m, hm, hma⟩ := InFlight.mem_footprint.mp ha'
  obtain rfl : l = m := h.lane_eq hi hj (hla.trans hma.symm)
  obtain rfl : l = .a := List.mem_singleton.mp hm
  exact absurd (show Lane.a ∈ Op.colorrgb.lanes from hl) (by decide)

/-! One pass and two passes, address by address. -/

/-- Each pixel of the one pass is the RGB pass of the pixel followed by the alpha pass of it (R137). -/
theorem State.dxt5_pixelWrites (s : State) (i : Nat) :
    (s.operation .dxt5 0).pixelWrites i = (s.operation .colorrgb 1).pixelWrites i ++ (s.operation .alpha 0).pixelWrites i := rfl

/-- Each pixel of the four-lane colour is the RGB pass of the pixel followed by one entry at the address of its lane A. -/
theorem State.dxt1_pixelWrites (s : State) (i : Nat) :
    (s.operation .dxt1 1).pixelWrites i = (s.operation .colorrgb 1).pixelWrites i ++
      [((s.operation .alpha 0).laneAddr i .a, (s.operation .dxt1 1).value i .a)] := rfl

/-- Away from the alpha lanes the one pass is the RGB pass. -/
theorem dxt5_sameEffectAt_colorrgb {s : State} {a : Word} (ha : a ∉ (s.operation .alpha 0).footprint) :
    sameEffectAt a (s.operation .dxt5 0).writeSeq (s.operation .colorrgb 1).writeSeq := by
  refine sameEffectAt.flatMap fun i hi => ?_
  rw [s.dxt5_pixelWrites]
  exact (InFlight.pixelWrites_sameEffectAt_nil ha hi).append_nil _

/-- Away from the colour lanes the one pass is the alpha pass. -/
theorem dxt5_sameEffectAt_alpha {s : State} {a : Word} (ha : a ∉ (s.operation .colorrgb 1).footprint) :
    sameEffectAt a (s.operation .dxt5 0).writeSeq (s.operation .alpha 0).writeSeq := by
  refine sameEffectAt.flatMap fun i hi => ?_
  rw [s.dxt5_pixelWrites]
  exact (InFlight.pixelWrites_sameEffectAt_nil ha hi).nil_append _

/-- Away from the alpha lanes the four-lane colour is the RGB pass. -/
theorem dxt1_sameEffectAt_colorrgb {s : State} {a : Word} (ha : a ∉ (s.operation .alpha 0).footprint) :
    sameEffectAt a (s.operation .dxt1 1).writeSeq (s.operation .colorrgb 1).writeSeq := by
  refine sameEffectAt.flatMap fun i hi => ?_
  rw [s.dxt1_pixelWrites]
  refine (sameEffectAt_nil fun w hw e => ha ?_).append_nil _
  obtain rfl := List.mem_singleton.mp hw
  exact InFlight.mem_footprint.mpr ⟨i, List.mem_range.mp hi, .a, List.mem_singleton_self _, e⟩

/-- Before the alpha pass it makes no difference whether the colour also writes the alpha lanes. -/
theorem dxt1_alpha_sameEffectAt_colorrgb_alpha (s : State) (a : Word) :
    sameEffectAt a ((s.operation .dxt1 1).writeSeq ++ (s.operation .alpha 0).writeSeq)
      ((s.operation .colorrgb 1).writeSeq ++ (s.operation .alpha 0).writeSeq) := by
  by_cases ha : a ∈ (s.operation .alpha 0).footprint
  · exact (sameEffectAt_overwritten fun _ => ha).trans (sameEffectAt_overwritten fun _ => ha).symm
  · exact (dxt1_sameEffectAt_colorrgb ha).append (.refl a _)

/-- Under the condition of R140 the RGB pass and the alpha pass, in either order, are the one pass. -/
theorem twoPasses_sameEffectAt_dxt5 {s : State} (h : pixelsAligned (s.operation .dxt5 0)) (a : Word) :
    sameEffectAt a ((s.operation .colorrgb 1).writeSeq ++ (s.operation .alpha 0).writeSeq) (s.operation .dxt5 0).writeSeq ∧
    sameEffectAt a ((s.operation .alpha 0).writeSeq ++ (s.operation .colorrgb 1).writeSeq) (s.operation .dxt5 0).writeSeq := by
  by_cases ha : a ∈ (s.operation .colorrgb 1).footprint
  · have ha' := not_mem_alpha_of_mem_colorrgb h ha
    have hnil := InFlight.writeSeq_sameEffectAt_nil ha'
    have hone := (dxt5_sameEffectAt_colorrgb ha').symm
    exact ⟨(hnil.append_nil _).trans hone, (hnil.nil_append _).trans hone⟩
  · have hnil := InFlight.writeSeq_sameEffectAt_nil ha
    have hone := (dxt5_sameEffectAt_alpha ha).symm
    exact ⟨(hnil.nil_append _).trans hone, (hnil.append_nil _).trans hone⟩

/-! The commands run to their end. -/

/-- The memory after one decode command. -/
theorem runCommand_mem {i : Instr} {op : Op} {sel : BitVec 1} {s : State} (hi : commandOp i = some (op, sel)) (hr : s.ready)
    (hwr : s.canWriteAll (s.operation op sel)) :
    ∃ t, runCommand i s = .next t ∧ t.mem = Memory.applyWrites s.mem (s.operation op sel).writeSeq :=
  ⟨_, decodeCommandsComplete i op sel s hi hr hwr, rfl⟩

/-- The memory after two decode commands: the second finds the block idle again and the operand registers as they were. -/
theorem runTwo_mem {i j : Instr} {op op' : Op} {sel sel' : BitVec 1} {s : State} (hi : commandOp i = some (op, sel))
    (hj : commandOp j = some (op', sel')) (hr : s.ready) (hwr : s.canWriteAll (s.operation op sel))
    (hwr' : s.canWriteAll (s.operation op' sel')) :
    ∃ t, runTwo i j s = .next t ∧
      t.mem = Memory.applyWrites s.mem ((s.operation op sel).writeSeq ++ (s.operation op' sel').writeSeq) := by
  rw [Memory.applyWrites_append, runTwo, decodeCommandsComplete i op sel s hi hr hwr]
  exact runCommand_mem hj ⟨hr.1, rfl⟩ hwr'

theorem State.readByte_eq_of_sameEffectAt {m : Memory} {t u : State} {xs ys : List (Word × Byte)}
    (ht : t.mem = Memory.applyWrites m xs) (hu : u.mem = Memory.applyWrites m ys) {a : Word} (h : sameEffectAt a xs ys) :
    t.readByte a = u.readByte a := by
  rw [State.readByte, State.readByte, ht, hu]
  exact h m m rfl

/-- Settles O49: RGB and alpha in either order are the one pass by `twoPasses_sameEffectAt_dxt5`, and the four-lane colour
before alpha is the RGB pass before alpha. -/
theorem dxt5OrdersAgree : Obligations.Dxt5OrdersAgree := by
  intro s hr hwr hal
  have hwrs := hwr.of_fourLane rfl
  obtain ⟨t1, h1, hm1⟩ := runCommand_mem (i := .dxt5) rfl hr hwr
  obtain ⟨t2, h2, hm2⟩ := runTwo_mem (i := .dxt1 1) (j := .alpha 0) rfl rfl hr (hwrs _ _) (hwrs _ _)
  obtain ⟨t3, h3, hm3⟩ := runTwo_mem (i := .colorrgb 1) (j := .alpha 0) rfl rfl hr (hwrs _ _) (hwrs _ _)
  obtain ⟨t4, h4, hm4⟩ := runTwo_mem (i := .alpha 0) (j := .colorrgb 1) rfl rfl hr (hwrs _ _) (hwrs _ _)
  refine ⟨t1, t2, t3, t4, h1, h2, h3, h4, fun a => ?_⟩
  obtain ⟨hrgbFirst, halphaFirst⟩ := twoPasses_sameEffectAt_dxt5 hal a
  have hcolourFirst := (dxt1_alpha_sameEffectAt_colorrgb_alpha s a).trans hrgbFirst
  exact ⟨State.readByte_eq_of_sameEffectAt hm2 hm1 hcolourFirst, State.readByte_eq_of_sameEffectAt hm3 hm1 hrgbFirst,
    State.readByte_eq_of_sameEffectAt hm4 hm1 halphaFirst⟩

/-- Settles O50: the four-lane colour writes again every address the alpha pass has written. -/
theorem fourLaneColourOverwritesAlpha : Obligations.FourLaneColourOverwritesAlpha := by
  intro s hr hwr
  obtain ⟨t, ht, htm⟩ := runTwo_mem (i := .alpha 0) (j := .dxt1 1) rfl rfl hr (hwr.of_fourLane rfl _ _) hwr
  obtain ⟨u, hu, hum⟩ := runCommand_mem (i := .dxt1 1) rfl hr hwr
  refine ⟨t, u, ht, hu, fun a => State.readByte_eq_of_sameEffectAt htm hum (sameEffectAt_overwritten fun ha => ?_)⟩
  exact s.footprint_subset_fourLane rfl 1 .alpha 0 ha

end Sys2Proof.Machine
end

section
/-! PROOFS. The system commands (43_system_ops.md rules R150, R151): `NOP` by the state it meets, and `SRST`, which meets no
test. -/
namespace Sys2Proof.Machine

theorem exec_nop (s : State) : exec .nop s = .next (s.command State.flagDone) := exec_command (by decide) s

theorem exec_nop_ready {s : State} (hr : s.ready) : exec .nop s = .next s.flagDone := by
  obtain ⟨herr, hbusy⟩ := hr
  rw [exec_nop, State.command_ready herr hbusy]

theorem exec_nop_busy {s : State} (herr : s.err = 0) (hbusy : s.busy = true) :
    exec .nop s = .next { s with err := 2 } := by
  rw [exec_nop, State.command_busy herr hbusy]

theorem exec_nop_latched {s : State} (herr : s.err ≠ 0) : exec .nop s = .next s := by
  rw [exec_nop, State.command_latched herr]

/-- Settles O16: the three clauses are the three outcomes of `State.command`. -/
theorem nopSetsDone : Obligations.NopSetsDone :=
  ⟨rfl, rfl, fun _ => ⟨exec_nop_ready, exec_nop_busy, exec_nop_latched⟩⟩

/-- Settles O17: `SRST` is `resetRegs` in every state, and the engine is idle after it. -/
theorem srstResets : Obligations.SrstResets :=
  ⟨rfl, rfl, fun s => ⟨s.resetRegs, exec_srst s, rfl, engineTurn_idle s.resetRegs_busy⟩⟩

end Sys2Proof.Machine
end

section
/-! PROOFS. The host sequences (44_host_sequences.md rules R160 to R165): a poll of `WAIT`, the block grid, the host steps a
conversion expands to block by block, and the extent of the bytes it writes. -/
namespace Sys2Proof.Machine

/-! A poll of `WAIT` (R160). -/

theorem hostOp_wait (s : State) : hostOp .wait s = .next (waitPoll s) := rfl

theorem waitPoll_busy {s : State} (hb : s.busy = true) :
    waitPoll s = { s with reads := .reg 0x04 s.statusWord :: s.reads, script := .wait :: s.script } := if_pos hb

theorem waitPoll_idle {s : State} (hb : s.busy = false) :
    waitPoll s = { s with reads := .reg 0x04 s.statusWord :: s.reads } := if_neg (Bool.eq_false_iff.mp hb)

/-- Settles O14: a poll by `BUSY`. -/
theorem waitPolls : Obligations.WaitPolls := by
  intro s
  rw [hostOp_wait]
  exact ⟨fun hb => by rw [waitPoll_busy hb], fun hb => by rw [waitPoll_idle hb]⟩

/-! The block grid (R161). -/

theorem le_four_mul_blocks (n : Nat) : n ≤ 4 * blocks n := by
  rw [blocks]
  omega

theorem four_mul_blocks_lt (n : Nat) : 4 * blocks n < n + 4 := by
  rw [blocks]
  omega

theorem four_mul_blocks_of_multiple {n : Nat} (h : n % 4 = 0) : 4 * blocks n = n := by
  rw [blocks]
  omega

theorem lt_four_mul_blocks {n : Nat} (h : n % 4 ≠ 0) : n < 4 * blocks n := by
  rw [blocks]
  omega

/-- Settles O57: the two bounds say that `blocks` is the quotient by 4 rounded up. -/
theorem gridAndStride : Obligations.GridAndStride := fun width _ =>
  ⟨le_four_mul_blocks width, four_mul_blocks_lt width, rfl, Nat.mul_mod_left width 4, rfl⟩

/-! The walk over the blocks (R162). -/

theorem length_flatMap_range {α : Type} {g : Nat → List α} {c : Nat} (hc : ∀ i, (g i).length = c) (n : Nat) :
    ((List.range n).flatMap g).length = c * n := by
  simp [List.length_flatMap, hc, Nat.mul_comm]

section GridWalk
variable {width height c : Nat} {body : Nat → Nat → List HostOp} (hc : ∀ bx bY, (body bx bY).length = c)
include hc

theorem gridWalk_length : (gridWalk width height body).length = blocks width * blocks height * c := by
  rw [gridWalk, length_flatMap_range fun bY => length_flatMap_range (fun bx => hc bx bY) _]
  ring

/-- Host step `j` of a block stands `j` places after the steps of the blocks before it. -/
theorem gridWalk_getElem? {bx bY j : Nat} (hx : bx < blocks width) (hy : bY < blocks height) (hj : j < c) :
    (gridWalk width height body)[c * blockNumber width bx bY + j]? = (body bx bY)[j]? := by
  have hcol : c * bx + j < c * blocks width := by
    rw [Nat.mul_comm c (blocks width)]
    exact Nat.mul_add_lt_mul_of_lt_of_lt hx hj
  have hplace : c * blockNumber width bx bY + j = c * blocks width * bY + (c * bx + j) := by
    rw [blockNumber]
    ring
  rw [hplace, gridWalk, getElem?_flatMap_range (fun y => length_flatMap_range (fun x => hc x y) _) hy hcol,
    getElem?_flatMap_range (fun x => hc x bY) hx hj]

/-- The steps of a block are a contiguous piece of the walk, at the place of the block's number. -/
theorem gridWalk_block {bx bY : Nat} (hx : bx < blocks width) (hy : bY < blocks height) :
    ((gridWalk width height body).drop (c * blockNumber width bx bY)).take c = body bx bY := by
  refine List.ext_getElem? fun j => ?_
  by_cases hj : j < c
  · rw [List.getElem?_take_of_lt hj, List.getElem?_drop, gridWalk_getElem? hc hx hy hj]
  · rw [List.getElem?_take_eq_none (Nat.le_of_not_lt hj), List.getElem?_eq_none (by rw [hc]; omega)]

end GridWalk

/-! The steps of one block (R162, R163). -/

theorem srcByte_of_getElem? {src : List Byte} {o j : Nat} {v : Byte} (h : src[o + j]? = some v) : srcByte src o j = v := by
  rw [srcByte, List.getD_eq_getElem?_getD, h, Option.getD_some]

/-- `LDBLK8` reads its first eight bytes only. -/
theorem ldblk8_congr (sel : BitVec 1) {b b' : Nat → Byte} (h : ∀ j < 8, b j = b' j) : ldblk8 sel b = ldblk8 sel b' := by
  simp [ldblk8, h]

/-- `LDBLK16` reads its first sixteen bytes only. -/
theorem ldblk16_congr {b b' : Nat → Byte} (h : ∀ j < 16, b j = b' j) : ldblk16 b = ldblk16 b' := by
  rw [ldblk16, ldblk16, ldblk8_congr 0 fun j hj => h j (by omega), ldblk8_congr 1 fun j hj => h (8 + j) (by omega)]

/-- The host steps of `CONVERT_DXT1` for block `(bx, by)`. -/
def dxt1BlockLines (src : List Byte) (dst : Word) (width bx bY : Nat) : List HostOp :=
  ldblk8 0 (srcByte src (blockNumber width bx bY * 8)) ++ placeBlock dst width bx bY ++ [cmd (.dxt1 0), .wait]

theorem dxt1BlockLines_length (src : List Byte) (dst : Word) (width bx bY : Nat) :
    (dxt1BlockLines src dst width bx bY).length = 6 := rfl

theorem convertDxt1_short {src : List Byte} {width height : Nat} (h : src.length < sourceNeeded 8 width height)
    (dst : Word) : convertDxt1 src dst width height = none := if_pos h

theorem convertDxt1_enough {src : List Byte} {width height : Nat} (h : sourceNeeded 8 width height ≤ src.length)
    (dst : Word) :
    convertDxt1 src dst width height = some (gridWalk width height (dxt1BlockLines src dst width)) :=
  if_neg (Nat.not_lt.mpr h)

/-- Settles O58: the expansion is a grid walk with six steps per block, which read the eight bytes of the block. -/
theorem convertDxt1Walk : Obligations.ConvertDxt1Walk := by
  intro src dst width height
  refine ⟨fun h => convertDxt1_short h dst, fun h => ?_⟩
  have hc := dxt1BlockLines_length src dst width
  refine ⟨_, convertDxt1_enough h dst, gridWalk_length hc, fun bx hx bY hy b hb => ?_⟩
  refine (gridWalk_block hc hx hy).trans ?_
  have hsrc : ∀ j < 8, srcByte src (blockNumber width bx bY * 8) j = b j := fun j hj => srcByte_of_getElem? (hb j hj)
  rw [dxt1BlockLines, ldblk8_congr 0 hsrc]
  rfl

/-- The host steps of `CONVERT_DXT5` for block `(bx, by)`. -/
def dxt5BlockLines (form : Dxt5Form) (src : List Byte) (dst : Word) (width bx bY : Nat) : List HostOp :=
  ldblk16 (srcByte src (blockNumber width bx bY * 16)) ++ placeBlock dst width bx bY ++ dxt5Lines form ++ [.wait]

theorem dxt5BlockLines_length (form : Dxt5Form) (src : List Byte) (dst : Word) (width bx bY : Nat) :
    (dxt5BlockLines form src dst width bx bY).length = (dxt5Lines form).length + 7 := by
  cases form <;> rfl

theorem convertDxt5_short {src : List Byte} {width height : Nat} (h : src.length < sourceNeeded 16 width height)
    (form : Dxt5Form) (dst : Word) : convertDxt5 form src dst width height = none := if_pos h

theorem convertDxt5_enough {src : List Byte} {width height : Nat} (h : sourceNeeded 16 width height ≤ src.length)
    (form : Dxt5Form) (dst : Word) :
    convertDxt5 form src dst width height = some (gridWalk width height (dxt5BlockLines form src dst width)) :=
  if_neg (Nat.not_lt.mpr h)

/-- Settles O59: the same walk with the steps of the chosen sequence in each block, which read its sixteen bytes. -/
theorem convertDxt5Walk : Obligations.ConvertDxt5Walk := by
  intro form src dst width height
  refine ⟨fun h => convertDxt5_short h form dst, fun h => ?_⟩
  have hc := dxt5BlockLines_length form src dst width
  refine ⟨_, convertDxt5_enough h form dst, gridWalk_length hc, fun bx hx bY hy b hb => ?_⟩
  refine (gridWalk_block hc hx hy).trans ?_
  have hsrc : ∀ j < 16, srcByte src (blockNumber width bx bY * 16) j = b j := fun j hj => srcByte_of_getElem? (hb j hj)
  rw [dxt5BlockLines, ldblk16_congr hsrc]
  rfl

/-! The extent of a conversion (R165). -/

theorem conversionExtent_eq {width height : Nat} (hx : 1 ≤ blocks width) (hy : 1 ≤ blocks height) :
    conversionExtent width height = ((4 * blocks height - 1) * width + 4 * blocks width) * 4 :=
  if_neg (by omega)

/-- Pixel `(x, y)` of block `(bx, by)` stands in column `4*bx + x` of row `4*by + y` of the image. -/
theorem pixelOffset_eq (width bx bY x y : Nat) :
    blockOffset width bx bY + y * imageStride width + x * 4 = ((4 * bY + y) * width + (4 * bx + x)) * 4 := by
  rw [blockOffset, imageStride]
  ring

/-- The last byte a pixel of the grid can have is within the extent: no row is below the last one, no column beyond it. -/
theorem pixel_end_le_extent {width height row col : Nat} (hrow : row < 4 * blocks height) (hcol : col < 4 * blocks width) :
    (row * width + col) * 4 + 4 ≤ ((4 * blocks height - 1) * width + 4 * blocks width) * 4 := by
  have hrows : row * width ≤ (4 * blocks height - 1) * width := Nat.mul_le_mul_right width (by omega)
  omega

/-- The extent is that of whole rows of the grid, and of the columns by which the last row passes the true width. -/
theorem conversionExtent_eq_rows {width height : Nat} (hx : 1 ≤ blocks width) (hy : 1 ≤ blocks height) :
    conversionExtent width height = (4 * blocks height * width + (4 * blocks width - width)) * 4 := by
  have hlast : (4 * blocks height - 1) * width + width = 4 * blocks height * width := by
    rw [← Nat.succ_mul, Nat.succ_eq_add_one, Nat.sub_add_cancel (by omega)]
  have hw := le_four_mul_blocks width
  rw [conversionExtent_eq hx hy]
  omega

theorem conversionExtent_of_multiples {width height : Nat} (hx : 1 ≤ blocks width) (hy : 1 ≤ blocks height)
    (hw : width % 4 = 0) (hh : height % 4 = 0) : conversionExtent width height = getBufferSize width height := by
  rw [conversionExtent_eq_rows hx hy, four_mul_blocks_of_multiple hw, four_mul_blocks_of_multiple hh, Nat.sub_self,
    getBufferSize, Nat.add_zero, Nat.mul_comm height]

/-- A width that is no multiple of 4 lengthens the last row; a height that is none adds whole rows. -/
theorem bufferSize_lt_conversionExtent {width height : Nat} (hx : 1 ≤ blocks width) (hy : 1 ≤ blocks height)
    (h : width % 4 ≠ 0 ∨ height % 4 ≠ 0) : getBufferSize width height < conversionExtent width height := by
  rw [conversionExtent_eq_rows hx hy, getBufferSize, Nat.mul_comm width]
  obtain hw | hh := h
  · have hcols := lt_four_mul_blocks hw
    have hrows : height * width ≤ 4 * blocks height * width := Nat.mul_le_mul_right width (le_four_mul_blocks height)
    omega
  · have hpos : 0 < width := by
      have := four_mul_blocks_lt width
      omega
    have hrows : height * width < 4 * blocks height * width := Nat.mul_lt_mul_of_pos_right (lt_four_mul_blocks hh) hpos
    omega

/-- Settles O60: the last row and the last column of the grid meet in pixel (3, 3) of the last block. -/
theorem conversionExtent_isExact : Obligations.ConversionExtent := by
  intro width height hx hy
  refine ⟨fun bx hbx bY hbY i hi l => ?_, ?_, conversionExtent_eq hx hy, conversionExtent_of_multiples hx hy,
    bufferSize_lt_conversionExtent hx hy⟩
  · have hend := pixel_end_le_extent (row := 4 * bY + i / 4) (col := 4 * bx + i % 4) (width := width) (height := height)
      (by omega) (by omega)
    have hl := l.index_lt
    rw [pixelOffset_eq, conversionExtent_eq hx hy]
    omega
  · have hrow : 4 * (blocks height - 1) + 3 = 4 * blocks height - 1 := by omega
    rw [pixelOffset_eq, conversionExtent_eq hx hy, hrow]
    omega

end Sys2Proof.Machine
end

section
/-! PROOFS. The errors (60_exceptions.md rules R177 to R181, R186): the first one is latched and stays, a command is turned
away, and a refused write ends the operation with the entries before it in the memory. -/
namespace Sys2Proof.Machine

/-! Under a latched error (R177). -/

/-- A word other than that of `SRST` is dropped, legal or not (R80 line 2). -/
theorem cmdWrite_latched {w : Word} (hw : w ≠ encode .srst) {s : State} (he : s.err ≠ 0) : cmdWrite w s = .next s := by
  rw [cmdWrite_command hw, State.command_latched he]

/-- A host step that reaches `CMD` is a 32-bit write at its offset. -/
theorem eq_wr_cmd {bits off : Nat} {w : Word} {s t : State} (hoff : regAt off = some .cmd)
    (h : hostOp (.regWrite bits off w) s = .next t) : HostOp.regWrite bits off w = wr .cmd w := by
  by_cases hok : portAccessOk bits off = true
  · obtain ⟨rfl, -⟩ := portAccessOk_iff.mp hok
    rw [wr, regOffset_of_regAt hoff]
  · rw [hostOp_regWrite_refused hok] at h
    cases h

theorem hostOp_latched {op : HostOp} {s t : State} (he : s.err ≠ 0) (h : hostOp op s = .next t) :
    (t.err = s.err ∧ t.faddr = s.faddr) ∨ op = wr .cmd (encode .srst) := by
  obtain rfl | ⟨r, rfl⟩ | ⟨r, v, rfl⟩ | ⟨a, v, -, rfl⟩ | ⟨-, rfl⟩ | ⟨bits, off, w, rfl, hoff, -⟩ := hostOp_cases h
  · exact .inl ⟨rfl, rfl⟩
  · exact .inl ⟨rfl, rfl⟩
  · exact .inl ⟨State.setReg_err s r v, State.setReg_faddr s r v⟩
  · exact .inl ⟨rfl, rfl⟩
  · obtain ⟨-, -, herr, hfaddr, -⟩ := waitPoll_fields s
    exact .inl ⟨herr, hfaddr⟩
  · have hop := eq_wr_cmd hoff h
    rw [hop, hostOp_writeCmd] at h
    by_cases hw : w = encode .srst
    · exact .inr (hw ▸ hop)
    · obtain rfl := Host.Outcome.next.inj ((cmdWrite_latched hw he).symm.trans h)
      exact .inl ⟨rfl, rfl⟩

theorem hostTurn_latched {s t : State} (he : s.err ≠ 0) (h : hostTurn s = .next t) :
    (t.err = s.err ∧ t.faddr = s.faddr) ∨ s.script.head? = some (wr .cmd (encode .srst)) := by
  obtain ⟨-, rfl⟩ | ⟨op, rest, hs, hop⟩ := hostTurn_cases h
  · exact .inl ⟨rfl, rfl⟩
  · rw [hs, List.head?_cons, Option.some_inj]
    exact hostOp_latched (s := s.setScript rest) he hop

/-- A bus error under a latched error records nothing. -/
theorem State.busError_latched {s : State} (he : s.err ≠ 0) (a : Word) : s.busError a = s.flagAbort := by
  rw [State.busError, State.raise_later he]

theorem engineTurn_latched {s t : State} (he : s.err ≠ 0) (h : engineTurn s = .next t) :
    t.err = s.err ∧ t.faddr = s.faddr := by
  obtain ⟨-, rfl⟩ | ⟨-, ⟨a, v⟩, -, rfl⟩ := engineTurn_cases h
  · exact ⟨rfl, rfl⟩
  · obtain ⟨-, hx⟩ | ⟨-, hx⟩ := engineWrite_cases a v s
    · rw [hx]
      exact ⟨State.wrote_err _, State.wrote_faddr _⟩
    · rw [hx, State.busError_latched he]
      exact ⟨rfl, rfl⟩

/-- Settles O24: the turns of the host and of the engine keep `ERR` and `FADDR`, the host's but for `SRST`. -/
theorem errorsAreSticky : Obligations.ErrorsAreSticky := by
  refine fun s he => ⟨fun t h => ?_, fun w hw => cmdWrite_latched hw he⟩
  obtain ⟨ha, ht⟩ | ⟨-, ht⟩ | ⟨ha, -⟩ := step_cases h
  · obtain hkeep | hsrst := hostTurn_latched (s := s.dropSched) he ht
    · exact .inl hkeep
    · exact .inr (.inr ⟨ha, hsrst⟩)
  · exact .inl (engineTurn_latched (s := s.dropSched) he ht)
  · exact .inr (.inl ha)

/-! A command turned away, and the raise primitive (R178, R180). -/

/-- Settles O20: the first two outcomes of `State.command`. -/
theorem commandsTurnedAway : Obligations.CommandsTurnedAway := by
  intro i s hi
  rw [exec_command hi]
  exact ⟨fun he => by rw [State.command_latched he], fun he hb => by rw [State.command_busy he hb]⟩

/-- Settles O23: `State.raise_first` for each of the three errors, and `State.raise_later`. -/
theorem raiseLatchesTheFirst : Obligations.RaiseLatchesTheFirst := fun _ info =>
  ⟨fun he => ⟨State.raise_first he .illOp info, State.raise_first he .busyCmd info, State.raise_first he .bus info⟩,
    fun he e => State.raise_later he e info⟩

/-! A refused write (R181, R186). -/

/-- Every field after a bus error. -/
theorem State.busError_eq (s : State) (a : Word) : s.busError a = { s with
    busy := false
    err := if s.err = 0 then 3 else s.err
    faddr := if s.err = 0 then a else s.faddr } := by
  by_cases he : s.err = 0
  · rw [if_pos he, if_pos he, State.busError, State.raise_first he]
    rfl
  · rw [if_neg he, if_neg he, State.busError_latched he]
    rfl

/-- Settles O30: the refused entry is a bus error, after which the block is idle. -/
theorem refusedWriteAborts : Obligations.RefusedWriteAborts := fun s a _ hb hw ha =>
  ⟨s.busError a, engineTurn_refused hb hw ha, s.busError_eq a, engineTurn_idle (s.busError_busy a)⟩

/-- Settles O46: the entries before `j` by `runSteps_performed_succ`, and the engine's turn at entry `j` is refused. -/
theorem refusedOperationKeepsPrefix : Obligations.RefusedOperationKeepsPrefix := by
  intro s j a v hs hb hk hwr hw ha
  obtain ⟨hj, -⟩ := List.getElem?_eq_some_iff.mp hw
  have hrefused : engineTurn (s.performed j) = .next ((s.performed j).busError a) :=
    engineTurn_refused (s := s.performed j) hb hw ha
  rw [runSteps_performed_succ hs hb hk hj hwr hrefused, State.busError_eq]
  rfl

/-- Settles O51: both runs perform the same write sequence, and every address of the footprint is in it. -/
theorem resultIgnoresOldContents : Obligations.ResultIgnoresOldContents := by
  intro i op sel s m hi hr hwr
  obtain ⟨t, ht, htm⟩ := runCommand_mem hi hr hwr
  obtain ⟨u, hu, hum⟩ := runCommand_mem (s := { s with mem := m }) hi hr hwr
  refine ⟨t, u, ht, hu, fun a ha => ?_⟩
  rw [State.readByte, State.readByte, htm, hum]
  exact Memory.read_applyWrites_of_mem ha s.mem m

end Sys2Proof.Machine
end

section
/-! PROOFS. Reset and the hazards (70_reset_and_hazards.md rules R200, R201, R206, R211, R213): the step of a reset, a host that
respects `BUSY`, and the engine's bound on an operation in flight. -/
namespace Sys2Proof.Machine

/-! The step of a reset (R200, R201). -/

theorem step_rst {s : State} (h : s.nextAgent = .rst) : step s = .next s.dropSched.resetRegs := by
  simp [step, h, agentTurn, hardReset]

theorem State.nextAgent_cons {s : State} {a : Agent} {rest : List Agent} (h : s.sched = a :: rest) : s.nextAgent = a := by
  rw [State.nextAgent, h]

theorem State.dropSched_cons {s : State} {a : Agent} {rest : List Agent} (h : s.sched = a :: rest) :
    s.dropSched = { s with sched := rest } := by
  rw [State.dropSched, h, List.tail_cons]

/-- Settles O53: the step is `resetRegs` once the entry is used up, which leaves the in-flight record as it was. -/
theorem resetStep : Obligations.ResetStep := by
  intro s rest h
  rw [step_rst (State.nextAgent_cons h), State.dropSched_cons h]
  exact ⟨s.f, rfl⟩

/-! An operation in flight comes to its end (R211, R213). -/

/-- `ERR` after a refused write. -/
theorem State.busError_err (s : State) (a : Word) : (s.busError a).err = if s.err = 0 then 3 else s.err := by
  rw [State.busError_eq]

theorem State.busError_err_ne_zero (s : State) (a : Word) : (s.busError a).err ≠ 0 := by
  rw [State.busError_err]
  split
  · decide
  · assumption

/-- The two ends of an operation that was running with the code `e` in `ERR` (R213). -/
def State.endedFrom (e : BitVec 3) (t : State) : Prop :=
  t.busy = false ∧ ((t.done = true ∧ t.err = e) ∨ (t.done = false ∧ t.err ≠ 0))

/-- An accepted entry ends the operation, or leaves it in flight with one entry fewer pending. -/
theorem State.wrote_ends_or_advances {s : State} (hb : s.busy = true) :
    s.wrote.endedFrom s.err ∨
      (s.wrote.busy = true ∧ s.wrote.err = s.err ∧ s.wrote.f = { s.f with k := s.f.k + 1 }) := by
  by_cases hk : s.f.k + 1 = s.f.writeSeq.length
  · rw [State.wrote_last hk]
    exact .inl ⟨rfl, .inl ⟨rfl, rfl⟩⟩
  · rw [State.wrote_pending hk]
    exact .inr ⟨hb, rfl, rfl⟩

/-- A refused entry ends an operation: `DONE` was 0 while it ran. -/
theorem State.busError_endedFrom {s : State} (hd : s.done = false) (a : Word) : (s.busError a).endedFrom s.err :=
  ⟨s.busError_busy a, .inr ⟨(s.busError_done a).trans hd, s.busError_err_ne_zero a⟩⟩

theorem engineTurn_ends_or_advances {s t : State} (hb : s.busy = true) (hd : s.done = false) (h : engineTurn s = .next t) :
    t.endedFrom s.err ∨ (t.busy = true ∧ t.err = s.err ∧ t.f = { s.f with k := s.f.k + 1 }) := by
  obtain ⟨hidle, -⟩ | ⟨-, ⟨a, v⟩, -, rfl⟩ := engineTurn_cases h
  · rw [hb] at hidle; cases hidle
  · obtain ⟨-, he⟩ | ⟨-, he⟩ := engineWrite_cases a v s
    · rw [he]
      exact State.wrote_ends_or_advances (s := s.storeByte a v) hb
    · rw [he]
      exact .inl (State.busError_endedFrom hd a)

/-- With `n` entries pending the operation has ended after at most `n` engine steps. -/
theorem State.Inv.engineRun_ends {s : State} (h : s.Inv) (hb : s.busy = true) {n : Nat}
    (hn : s.f.k + n = s.f.writeSeq.length) : ∃ m t, m ≤ n ∧ engineRun m s = .next t ∧ t.endedFrom s.err := by
  induction n generalizing s with
  | zero => exact absurd hn (h.pending hb).ne
  | succ n ih =>
    obtain ⟨u, hu⟩ := h.engineTurn_answers
    obtain hend | ⟨hbusy, herr, hf⟩ := engineTurn_ends_or_advances hb (h.busyNotDone hb) hu
    · exact ⟨1, u, Nat.le_add_left 1 n, engineRun_succ hu, hend⟩
    · have hpending : u.f.k + n = u.f.writeSeq.length := by
        rw [hf, InFlight.writeSeq_setK, ← hn]
        exact Nat.add_right_comm _ _ _
      obtain ⟨m, t, hm, ht, hend⟩ := ih (h.engineTurn hu) hbusy hpending
      exact ⟨m + 1, t, Nat.succ_le_succ hm, (engineRun_succ hu).trans ht, herr ▸ hend⟩

/-- Settles O47: the pending entries bound the engine steps, and no write sequence is longer than 64. -/
theorem operationEndsWithin64 : Obligations.OperationEndsWithin64 := by
  intro s h hb
  obtain ⟨m, t, hm, ht, hend⟩ := h.engineRun_ends hb (Nat.add_sub_cancel' (h.pending hb).le)
  exact ⟨m, t, hm.trans ((Nat.sub_le _ _).trans s.f.writeSeq_le), ht, hend⟩

/-! A host that respects `BUSY` (R206, R180). -/

theorem wordEffect_err_ne_busyCmd (w : Word) {s : State} (he : s.err ≠ 2) : (wordEffect w s).err ≠ 2 := by
  unfold wordEffect
  split
  · simp
  · split
    · exact he
    · exact he

/-- On an idle block a command does not meet the `BUSY` test. -/
theorem State.command_err_ne_busyCmd {s : State} {g : State → State} (hb : s.busy = false) (he : s.err ≠ 2)
    (hg : (g s).err ≠ 2) : (s.command g).err ≠ 2 := by
  obtain ⟨-, h⟩ | ⟨-, hbusy, -⟩ | ⟨-, -, h⟩ := State.command_cases s g
  · rw [h]; exact he
  · rw [hb] at hbusy; cases hbusy
  · rw [h]; exact hg

/-- `SRST` clears `ERR`, and any other word meets an idle block. -/
theorem cmdWrite_err_ne_busyCmd {w : Word} {s t : State} (hw : s.busy = true → w = encode .srst) (he : s.err ≠ 2)
    (h : cmdWrite w s = .next t) : t.err ≠ 2 := by
  by_cases hsrst : w = encode .srst
  · rw [hsrst, cmdWrite_legal (decode_encode .srst), exec_srst] at h
    obtain rfl := Host.Outcome.next.inj h
    simp
  · rw [cmdWrite_command hsrst] at h
    obtain rfl := Host.Outcome.next.inj h
    exact State.command_err_ne_busyCmd (Bool.eq_false_iff.mpr fun hb => hsrst (hw hb)) he (wordEffect_err_ne_busyCmd w he)

theorem hostOp_err_ne_busyCmd {op : HostOp} {s t : State} (hr : respectsBusy s op) (he : s.err ≠ 2)
    (h : hostOp op s = .next t) : t.err ≠ 2 := by
  obtain rfl | ⟨r, rfl⟩ | ⟨r, v, rfl⟩ | ⟨a, v, -, rfl⟩ | ⟨-, rfl⟩ | ⟨bits, off, w, rfl, hoff, -⟩ := hostOp_cases h
  · exact he
  · exact he
  · rw [State.setReg_err]; exact he
  · exact he
  · obtain ⟨-, -, herr, -⟩ := waitPoll_fields s
    rw [herr]; exact he
  · rw [eq_wr_cmd hoff h, hostOp_writeCmd] at h
    exact cmdWrite_err_ne_busyCmd (hr (regOffset_of_regAt hoff).symm) he h

theorem hostTurn_err_ne_busyCmd {s t : State} (hr : s.hostRespects) (he : s.err ≠ 2) (h : hostTurn s = .next t) :
    t.err ≠ 2 := by
  obtain ⟨-, rfl⟩ | ⟨op, rest, hs, hop⟩ := hostTurn_cases h
  · exact he
  · have hrop : respectsBusy s op := hr op (by rw [hs]; rfl)
    exact hostOp_err_ne_busyCmd (s := s.setScript rest) hrop he hop

/-- The engine latches `Bus` only. -/
theorem engineTurn_err_ne_busyCmd {s t : State} (he : s.err ≠ 2) (h : engineTurn s = .next t) : t.err ≠ 2 := by
  obtain ⟨-, rfl⟩ | ⟨-, ⟨a, v⟩, -, rfl⟩ := engineTurn_cases h
  · exact he
  · obtain ⟨-, hx⟩ | ⟨-, hx⟩ := engineWrite_cases a v s
    · rw [hx, State.wrote_err]
      exact he
    · rw [hx, State.busError_err]
      split
      · decide
      · exact he

/-- Settles O25: the turn of each agent keeps `ERR` away from 2. -/
theorem respectfulHostNeverBusyCmd : Obligations.RespectfulHostNeverBusyCmd := by
  intro s t hr he h
  obtain ⟨-, ht⟩ | ⟨-, ht⟩ | ⟨-, rfl⟩ := step_cases h
  · exact hostTurn_err_ne_busyCmd (s := s.dropSched) hr he ht
  · exact engineTurn_err_ne_busyCmd (s := s.dropSched) he ht
  · simp

end Sys2Proof.Machine
end
